-- ==== Sys2Proof/Word.lean ====
section
/-! DEFINITION. The word types of the block (spec/00_scope.md R8): a register is 32 bits wide unless its table says
otherwise, a buffer element is a byte, a host bus offset is 16 bits (spec/20_memory.md R50). -/

namespace Sys2Proof

/-- A 32-bit register value or bus word (R8, R50). -/
abbrev Word := BitVec 32

/-- A byte of a buffer or of the wire (R9). -/
abbrev Byte := BitVec 8

/-- A host bus byte offset: "a 16-bit value" (R50). Also the width of PORT and of the reader's offsets. -/
abbrev Half := BitVec 16

end Sys2Proof
end

