-- ==== Sys2Proof/Config.lean ====
section
/-! DEFINITION. The implementation parameters of spec/00_scope.md R6 and the free values of spec/70_reset_and_hazards.md R190.
A constant written `opaque` has no body: nothing can be proved of its value, so what is proved holds for every value. -/

namespace Sys2Proof.Config

/-- `STR_BUF_BYTES` (R6): size of the string staging buffer STR. -/
abbrev strBufBytes : Nat := 256

/-- `TX_BODY_MAX` (R6): largest frame body the frame_builder holds. -/
abbrev txBodyMax : Nat := 1022

/-- `TX_FRAME_MAX` (R6): size of the TX frame window. -/
abbrev txFrameMax : Nat := 1024

/-- `RX_BUF_BYTES` (R6): size of the received-frame body buffer RX. -/
abbrev rxBufBytes : Nat := 32768

/-- The four sizes of R6 as one record, so that R6's condition on them can be checked (WellFormed.lean). -/
structure Params where
  strBufBytes : Nat
  txBodyMax : Nat
  txFrameMax : Nat
  rxBufBytes : Nat
deriving DecidableEq, Repr

/-- The sizes this model is built at: the values of R6. -/
def params : Params where
  strBufBytes := strBufBytes
  txBodyMax := txBodyMax
  txFrameMax := txFrameMax
  rxBufBytes := rxBufBytes

/-- `CONNECT_TIMEOUT_RESET` (R6, R30): OPEN, so a constant without a body (log 5). -/
opaque connectTimeoutReset : Word

/-- `READ_TIMEOUT_RESET` (R6, R30): OPEN, so a constant without a body (log 5). -/
opaque readTimeoutReset : Word

/-- `TICK_PERIOD` (R6): OPEN; "No rule depends on it", and no definition of the model uses it (log 16). -/
opaque tickPeriod : Nat

/-- The three byte buffers whose contents are unspecified after reset (R190). -/
inductive Buffer where
  | str   -- STR, 10_state.md R36
  | body  -- BODY, R37
  | rx    -- RX, R38
deriving DecidableEq, Repr

/-- R190: "Each buffer byte holds an unspecified value after reset. The value is chosen freely at reset and keeps until
written. A model must draw it and must not assume 0." The byte that draw number `draw` gives to byte `i` of a buffer:
a free value (log 3). -/
opaque drawnByte (b : Buffer) (draw i : Nat) : Byte

end Sys2Proof.Config
end

