-- ==== Sys2Proof/Syntax.lean ====
section
/-! DEFINITION. The commands of the block: one constructor per row of spec/opcode_table.json (spec/30_encoding.md R71).
A command word carries no immediate (R70), so no constructor has an argument: operands come from registers and
buffers at the step the command executes (R72). -/

namespace Sys2Proof

/-- The SLP-core command set, version 1 (spec/00_scope.md R2; spec/30_encoding.md R71). -/
inductive Instr where
  /-- VENC, 41_varint.md R92 -/
  | venc
  /-- VDEC, R93 -/
  | vdec
  /-- FB_RESET, 42_frame_builder.md R101 -/
  | fbReset
  /-- FB_WBYTE, R102 -/
  | fbWbyte
  /-- FB_WBYTES, R103 -/
  | fbWbytes
  /-- FB_WVARINT, R104 -/
  | fbWvarint
  /-- FB_WU16BE, R105 -/
  | fbWu16be
  /-- FB_WSTR, R106 -/
  | fbWstr
  /-- FB_FINISH, R107 -/
  | fbFinish
  /-- FP_LOAD, 43_frame_parser.md R121 -/
  | fpLoad
  /-- FP_RBYTE, R122 -/
  | fpRbyte
  /-- FP_RBYTES, R123 -/
  | fpRbytes
  /-- FP_RVARINT, R124 -/
  | fpRvarint
  /-- FP_RSTR, R125 -/
  | fpRstr
  /-- HS_START, 44_handshake_fsm.md R142 -/
  | hsStart
deriving DecidableEq, Repr

end Sys2Proof
end

