-- ==== Sys2Proof/WellFormed.lean ====
section
/-! DEFINITION. What the spec asks of a command word (spec/30_encoding.md R70, R71) and of the implementation parameters
(spec/00_scope.md R6) before they count as well formed. -/

namespace Sys2Proof

/-- A command word split into its two fields (R70): OPC is bits [7:0], RSVD is bits [31:8]. -/
structure CommandWord where
  opc : BitVec 8
  rsvd : BitVec 24
deriving DecidableEq, Repr

/-- The fields of a 32-bit word written to CMD (R70). -/
def commandFields (w : Word) : CommandWord where
  opc := w.extractLsb' 0 8
  rsvd := w.extractLsb' 8 24

/-- The OPC column of R71. -/
def definedOpcodes : List (BitVec 8) :=
  [0x01, 0x02, 0x10, 0x11, 0x12, 0x13, 0x14, 0x15, 0x16, 0x20, 0x21, 0x22, 0x23, 0x24, 0x30]

/-- R71, R82: "Every other OPC value is illegal". -/
def CommandWord.opcodeDefined (c : CommandWord) : Bool := definedOpcodes.contains c.opc

/-- R70: RSVD "must be 0". -/
def CommandWord.reservedClear (c : CommandWord) : Bool := c.rsvd == 0

/-- A legal command word (R73). -/
def CommandWord.wellFormed (c : CommandWord) : Bool := c.opcodeDefined && c.reservedClear

/-- No command carries an operand field (R70, R72), so there is nothing in an instruction term that could be out of
range: each constructor is named so that one added with operands must state its check. -/
def Instr.wellFormed (i : Instr) : Bool :=
  match i with
  | .venc | .vdec => true
  | .fbReset | .fbWbyte | .fbWbytes | .fbWvarint | .fbWu16be | .fbWstr | .fbFinish => true
  | .fpLoad | .fpRbyte | .fpRbytes | .fpRvarint | .fpRstr => true
  | .hsStart => true

/-- R6: "A model that changes them must keep `TX_BODY_MAX + 2 <= TX_FRAME_MAX <= 1024`, `RX_BUF_BYTES <= 32768` and
`STR_BUF_BYTES <= 256`, so that the windows still fit." -/
def Config.Params.wellFormed (p : Config.Params) : Bool :=
  decide (p.txBodyMax + 2 ≤ p.txFrameMax) && decide (p.txFrameMax ≤ 1024) &&
    decide (p.rxBufBytes ≤ 32768) && decide (p.strBufBytes ≤ 256)

end Sys2Proof
end

