-- ==== Sys2Proof/Decode.lean ====
section
/-! DEFINITION. The command word decoder and encoder (spec/30_encoding.md R70, R71, R73, R82). -/

namespace Sys2Proof

/-- Why a word is no command (R73, R82; 60_exceptions.md R176). -/
inductive DecodeError where
  /-- "OPC values 0x00, 0x03–0x0F, 0x17–0x1F, 0x25–0x2F and 0x31–0xFF are illegal": ILLEGAL_COMMAND sub-cause 1. -/
  | undefinedOpcode
  /-- "A word with a legal OPC and RSVD != 0 is illegal": ILLEGAL_COMMAND sub-cause 2. -/
  | reservedBitsSet
deriving DecidableEq, Repr

/-- The opcode map of R71, read from OPC to command. -/
def instrOfOpcode (opc : BitVec 8) : Option Instr :=
  match opc.toNat with
  | 0x01 => some .venc
  | 0x02 => some .vdec
  | 0x10 => some .fbReset
  | 0x11 => some .fbWbyte
  | 0x12 => some .fbWbytes
  | 0x13 => some .fbWvarint
  | 0x14 => some .fbWu16be
  | 0x15 => some .fbWstr
  | 0x16 => some .fbFinish
  | 0x20 => some .fpLoad
  | 0x21 => some .fpRbyte
  | 0x22 => some .fpRbytes
  | 0x23 => some .fpRvarint
  | 0x24 => some .fpRstr
  | 0x30 => some .hsStart
  | _ => none

/-- R73's decode, total on every word; the undefined opcode is reported before the reserved bits (R178). -/
def decode (w : Word) : Except DecodeError Instr :=
  match instrOfOpcode (commandFields w).opc with
  | none => .error .undefinedOpcode
  | some i => if (commandFields w).reservedClear then .ok i else .error .reservedBitsSet

/-- The instruction the decoder reads from the low `nbits` of `w`, bit 0 the least significant bit of the command word.
A command is one 32-bit bus word (R70), so bits above 31 are no part of it. -/
def decodeTableWord (nbits w : Nat) : Option Instr :=
  match decode (BitVec.ofNat 32 (w % 2 ^ nbits)) with
  | .ok i => some i
  | .error _ => none

/-- The opcode map of R71, read from command to OPC. -/
def opcodeOf (i : Instr) : BitVec 8 :=
  match i with
  | .venc => 0x01
  | .vdec => 0x02
  | .fbReset => 0x10
  | .fbWbyte => 0x11
  | .fbWbytes => 0x12
  | .fbWvarint => 0x13
  | .fbWu16be => 0x14
  | .fbWstr => 0x15
  | .fbFinish => 0x16
  | .fpLoad => 0x20
  | .fpRbyte => 0x21
  | .fpRbytes => 0x22
  | .fpRvarint => 0x23
  | .fpRstr => 0x24
  | .hsStart => 0x30

/-- The word of a command: its OPC zero-extended (R70; R81 `zext_32(OPC of MNEM)`). -/
def encode (i : Instr) : Word := (opcodeOf i).setWidth 32

end Sys2Proof
end

