-- ==== Sys2Proof/Machine/State.lean ====
section
/-! DEFINITION. Everything the spec gives the block as state (spec/10_state.md), the steps its environment can take
(spec/20_memory.md R60; spec/44_handshake_fsm.md R140), and the state after reset (spec/70_reset_and_hazards.md R190). -/

namespace Sys2Proof.Machine

/-- STATUS.FSM (R24): "6 and 7 are never produced", so the six states are all there are (log 17). -/
inductive Fsm where
  | idle | connected | handshakeSent | statusRequested | responseReceived | failed
deriving DecidableEq, Repr

/-- STATUS.PHASE (R24): "7 is never produced" (log 17). -/
inductive Phase where
  | idle | connecting | sendHs | sendSr | recvLen | recvBody | done
deriving DecidableEq, Repr

/-- One step the environment can take (R60, R140, R190): a host access, a transport event, a tick, or a reset. -/
inductive Input where
  /-- `Read32(off)`, R50 -/
  | read32 (off : Half)
  /-- `Write32(off, v)`, R51 -/
  | write32 (off : Half) (v : Word)
  /-- the socket is established, R143 -/
  | connOk
  /-- the socket could not be established, R144 -/
  | connFail
  /-- the transport took the byte the block offers, R145 -/
  | txAccept
  /-- the next inbound stream item is a byte, R148 -/
  | rxByte (b : Byte)
  /-- the next inbound stream item is end-of-stream, R149 -/
  | rxEos
  /-- an I/O failure on the open socket, R150 -/
  | ioErr
  /-- one timebase tick, R151 -/
  | tick
  /-- the external reset, R190 -/
  | reset
deriving DecidableEq, Repr

/-- One event the block emits to the transport (R140). -/
inductive Output where
  /-- `ConnReq(host, port)` -/
  | connReq (host : List Byte) (port : Half)
  /-- `TxByte(b)` -/
  | txByte (b : Byte)
  /-- `Close` -/
  | close
deriving DecidableEq, Repr

/-- The bytes of one buffer that have been written since the last reset: (index, byte) pairs, indices strictly rising
(log 4). A byte not listed reads as its free draw (R190, log 3). -/
abbrev Mem := List Host.Cell

/-- The block's architectural state (10_state.md R21 to R39) and, last, the model's own fields. One State is one
instance of the block (20_memory.md R66, 60_exceptions.md R185; log 18). -/
structure State where
  /-- OPERAND, R23 -/
  operand : Word
  /-- STATUS.FSM, R24 -/
  fsm : Fsm
  /-- STATUS.PHASE, R24 (STATUS.BUSY is derived from it) -/
  phase : Phase
  /-- STATUS.REJ, R24, R40 -/
  rej : Bool
  /-- STATUS.FRAME_VALID, R24, R33 -/
  frameValid : Bool
  /-- ERR.CODE [3:0], R25 (STATUS.ERRF is derived from it) -/
  errCode : BitVec 4
  /-- ERR.SUB [7:4], R25 -/
  errSub : BitVec 4
  /-- RESULT, R26 -/
  result : Word
  /-- VBYTES_LO, R27: varint bytes 0 to 3 -/
  vbytesLo : Word
  /-- VBYTES_HI [7:0], R27: varint byte 4 -/
  vbytesHi : Byte
  /-- VLEN [2:0], R27 -/
  vlen : BitVec 3
  /-- PROTO_VER, R28 -/
  protoVer : Word
  /-- PORT [15:0], R29 -/
  port : Half
  /-- CONNECT_TIMEOUT, R30 -/
  connectTimeout : Word
  /-- READ_TIMEOUT, R30 -/
  readTimeout : Word
  /-- STR_LEN [8:0], R32 -/
  strLen : BitVec 9
  /-- TX_BODY_LEN [9:0], R33 -/
  txBodyLen : BitVec 10
  /-- TX_FRAME_LEN [10:0], R33 -/
  txFrameLen : BitVec 11
  /-- TX_SENT [10:0], R33 -/
  txSent : BitVec 11
  /-- RX_FRAME_LEN [15:0], R34 -/
  rxFrameLen : Half
  /-- RX_RCVD [15:0], R34 -/
  rxRcvd : Half
  /-- RX_CURSOR [15:0], R34 -/
  rxCursor : Half
  /-- SPAN_OFF [15:0], R35 -/
  spanOff : Half
  /-- SPAN_LEN [15:0], R35 -/
  spanLen : Half
  /-- TIMER, R30 -/
  timer : Word
  /-- STR, R36: the bytes written since the last reset -/
  str : Mem
  /-- BODY, R37: the bytes written since the last reset -/
  body : Mem
  /-- RX, R38: the bytes written since the last reset -/
  rx : Mem
  /-- PFX, R37: the hidden prefix register, five bytes of which PLEN are in use -/
  pfx : List Byte
  /-- PLEN, R37: 0 to 5 (log 12) -/
  plen : BitVec 3
  /-- LACC, R39: accumulator of the stream's length prefix (log 12) -/
  lacc : Word
  /-- LCNT, R39: byte count of the stream's length prefix, 0 to 5 (log 12) -/
  lcnt : BitVec 3
  /-- the output trace, R39: what the block has emitted, oldest first (log 7) -/
  trace : List Output
  /-- the MODEL's own: how many Reset steps there have been; it selects the draw of the unspecified bytes (log 3) -/
  draws : Nat
  /-- the MODEL's own: the steps the environment will take, next first (log 1) -/
  inputs : List Input
  /-- the MODEL's own: the words host reads have returned, oldest first (log 7) -/
  reads : List Word
deriving DecidableEq, Repr

/-- The block has no machine stop: an error is recorded in ERR and the block goes on (60_exceptions.md R171, R179), and no
bus access is an error (20_memory.md R53). So no fault exists (log 15). -/
inductive Fault where
deriving DecidableEq, Repr

/-- Why a step has no next state. -/
inductive Refusal where
  /-- An instruction without a meaning. Raised by no arm of exec: every command of the table has its meaning. Safe. -/
  | notModelled (mnemonic : String)
  /-- 44_handshake_fsm.md R157: "An event that is not enabled has **no step**". Raised by the machine's step where the
  schedule names a transport event in a phase that does not enable it. Safe: the model stops where the spec gives no
  step (log 2). -/
  | eventNotEnabled (event : Input)
deriving DecidableEq, Repr

/-- What a step of this machine answers. -/
abbrev Outcome := Host.Outcome State Fault Refusal

/-- The machine right after reset (R21, R190): the registers at the values of R21, nothing written in the buffers,
nothing emitted, nothing scheduled (log 10). The two timeouts are the OPEN parameters (log 5); PFX is the model's choice (log 6);
the draw count, the schedule and the read log are the model's own fields (logs 1, 3, 7). -/
def State.reset : State where
  operand := 0
  fsm := .idle
  phase := .idle
  rej := false
  frameValid := false
  errCode := 0
  errSub := 0
  result := 0
  vbytesLo := 0
  vbytesHi := 0
  vlen := 0
  protoVer := 0x0000002F
  port := 0x63DD
  connectTimeout := Config.connectTimeoutReset
  readTimeout := Config.readTimeoutReset
  strLen := 0
  txBodyLen := 0
  txFrameLen := 0
  txSent := 0
  rxFrameLen := 0
  rxRcvd := 0
  rxCursor := 0
  spanOff := 0
  spanLen := 0
  timer := 0
  str := []
  body := []
  rx := []
  pfx := [0, 0, 0, 0, 0]
  plen := 0
  lacc := 0
  lcnt := 0
  trace := []
  draws := 0
  inputs := []
  reads := []

end Sys2Proof.Machine
end

