-- ==== Sys2Proof/Machine/Flags.lean ====
section
/-! DEFINITION. The STATUS and ERR words and the derived flags (spec/10_state.md R24, R25, R40). The block has no arithmetic
condition codes (R40): these are all its flags. -/

namespace Sys2Proof.Machine

/-- The code STATUS.FSM shows for a state (R24). -/
def Fsm.code (f : Fsm) : BitVec 3 :=
  match f with
  | .idle => 0
  | .connected => 1
  | .handshakeSent => 2
  | .statusRequested => 3
  | .responseReceived => 4
  | .failed => 5

/-- The code STATUS.PHASE shows for a phase (R24). -/
def Phase.code (p : Phase) : BitVec 3 :=
  match p with
  | .idle => 0
  | .connecting => 1
  | .sendHs => 2
  | .sendSr => 3
  | .recvLen => 4
  | .recvBody => 5
  | .done => 6

/-- R24: BUSY is "1 exactly when PHASE is 1, 2, 3, 4 or 5 (a run is in progress). Derived". -/
def Phase.busy (p : Phase) : Bool :=
  match p with
  | .idle | .done => false
  | .connecting | .sendHs | .sendSr | .recvLen | .recvBody => true

/-- STATUS.BUSY (R24, R40). -/
def State.busy (s : State) : Bool := s.phase.busy

/-- STATUS.ERRF: "1 exactly when ERR.CODE != 0. Derived." (R24, R40). -/
def State.errf (s : State) : Bool := s.errCode != 0

/-- The STATUS register (R24): reserved [31:10], FRAME_VALID [9], REJ [8], ERRF [7], PHASE [6:4], BUSY [3], FSM [2:0]. -/
def State.status (s : State) : Word :=
  (0 : BitVec 22) ++ BitVec.ofBool s.frameValid ++ BitVec.ofBool s.rej ++ BitVec.ofBool s.errf ++ s.phase.code ++
    BitVec.ofBool s.busy ++ s.fsm.code

/-- The ERR register (R25, R170): `CODE | SUB << 4`. -/
def State.err (s : State) : Word := (0 : BitVec 24) ++ s.errSub ++ s.errCode

end Sys2Proof.Machine
end

