-- ==== Sys2Proof/Machine/Ops.lean ====
section
/-! DEFINITION. The shared operations over buffers, errors and the output trace: reading and writing a buffer byte,
the little-endian packing of words, and the two ways an error is entered (spec/60_exceptions.md R171 and
spec/44_handshake_fsm.md R156). There is no return from an error (R180): the host writes a new command. -/

namespace Sys2Proof.Machine

open Sys2Proof

/-! ### Bytes of a word (20_memory.md R54) -/

/-- Byte `j` of a 32-bit word, little-endian: bits `[8j+7:8j]` (R54). -/
def byteOf (v : Word) (j : Nat) : Byte := v.extractLsb' (8 * j) 8

/-- The little-endian word of four bytes, `b0` in bits [7:0] (R54). -/
def packBytes (b0 b1 b2 b3 : Byte) : Word := b3 ++ b2 ++ b1 ++ b0

/-- The four bytes of a word, `byteOf v 0` first (R54). -/
def bytesOfWord (v : Word) : List Byte := [byteOf v 0, byteOf v 1, byteOf v 2, byteOf v 3]

/-! ### Buffers (10_state.md R36 to R38) -/

/-- The byte written last at index `a`, or none where nothing has been written since the last reset. -/
def Mem.lookup (m : Mem) (a : Nat) : Option Byte :=
  match m with
  | [] => none
  | (k, b) :: rest => if k = a then some b else Mem.lookup rest a

/-- Set the byte at index `a`, keeping the indices strictly rising. -/
def Mem.insert (m : Mem) (a : Nat) (b : Byte) : Mem :=
  match m with
  | [] => [(a, b)]
  | (k, c) :: rest =>
    if a < k then (a, b) :: (k, c) :: rest
    else if a = k then (a, b) :: rest
    else (k, c) :: Mem.insert rest a b

/-- Write one byte of a buffer of `size` bytes. A buffer has no byte at or past `size`, so a write there stores nothing
(no run reaches one: log 13). -/
def Mem.write (size : Nat) (m : Mem) (a : Nat) (b : Byte) : Mem := if a < size then Mem.insert m a b else m

/-- Write a run of bytes from index `a` upwards. -/
def Mem.writeRun (size : Nat) (m : Mem) (a : Nat) (bs : List Byte) : Mem :=
  match bs with
  | [] => m
  | b :: rest => Mem.writeRun size (Mem.write size m a b) (a + 1) rest

/-- Indices strictly rising from `lo` on and below `size`. -/
def Mem.risingFrom (size lo : Nat) (m : Mem) : Bool :=
  match m with
  | [] => true
  | (k, _) :: rest => decide (lo ≤ k) && decide (k < size) && Mem.risingFrom size (k + 1) rest

/-- The canonical form of a buffer of `size` bytes (log 4). -/
def Mem.wf (size : Nat) (m : Mem) : Bool := Mem.risingFrom size 0 m

/-- How many bytes a buffer has (R6, R36 to R38). -/
def bufferSize (b : Config.Buffer) : Nat :=
  match b with
  | .str => Config.strBufBytes
  | .body => Config.txBodyMax
  | .rx => Config.rxBufBytes

/-- The written bytes of a buffer. -/
def State.buffer (s : State) (b : Config.Buffer) : Mem :=
  match b with
  | .str => s.str
  | .body => s.body
  | .rx => s.rx

/-- Byte `i` of a buffer: `STR[i]`, `BODY[i]`, `RX[i]` (R10). A byte not written since the last reset holds the value drawn
at that reset (R190): THE one definition of what an unlisted byte reads as (log 3). -/
def State.byteAt (s : State) (b : Config.Buffer) (i : Nat) : Byte :=
  (Mem.lookup (s.buffer b) i).getD (Config.drawnByte b s.draws i)

/-- Bytes `lo` to `lo + n - 1` of a buffer, lowest first. -/
def State.bytesFrom (s : State) (b : Config.Buffer) (lo n : Nat) : List Byte :=
  (List.range n).map (fun i => s.byteAt b (lo + i))

/-- Write a run of bytes into STR (only the host does, R36). -/
def State.writeStr (s : State) (a : Nat) (bs : List Byte) : State :=
  { s with str := Mem.writeRun (bufferSize .str) s.str a bs }

/-- Write a run of bytes into BODY (R37). -/
def State.writeBody (s : State) (a : Nat) (bs : List Byte) : State :=
  { s with body := Mem.writeRun (bufferSize .body) s.body a bs }

/-- Write a run of bytes into RX (R38). -/
def State.writeRx (s : State) (a : Nat) (bs : List Byte) : State :=
  { s with rx := Mem.writeRun (bufferSize .rx) s.rx a bs }

/-! ### Errors (60_exceptions.md R170) -/

/-- Every (CODE, SUB) pair the block can produce (R170, R173 to R176). -/
inductive ErrCause where
  | connectFailed | connectTimeout | ioError
  | readTimeout
  | overlongVarint | readPastEnd | unexpectedPacketId | truncatedStream
  | strTooLong | txBodyFull | rxLengthTooLarge
  | undefinedOpcode | reservedBitsSet
deriving DecidableEq, Repr

/-- ERR.CODE of a cause (R170). -/
def ErrCause.code (e : ErrCause) : BitVec 4 :=
  match e with
  | .connectFailed | .connectTimeout | .ioError => 1
  | .readTimeout => 2
  | .overlongVarint | .readPastEnd | .unexpectedPacketId | .truncatedStream => 3
  | .strTooLong | .txBodyFull | .rxLengthTooLarge => 4
  | .undefinedOpcode | .reservedBitsSet => 5

/-- ERR.SUB of a cause (R170). -/
def ErrCause.sub (e : ErrCause) : BitVec 4 :=
  match e with
  | .connectFailed => 1
  | .connectTimeout => 2
  | .ioError => 3
  | .readTimeout => 0
  | .overlongVarint => 1
  | .readPastEnd => 2
  | .unexpectedPacketId => 3
  | .truncatedStream => 4
  | .strTooLong => 1
  | .txBodyFull => 2
  | .rxLengthTooLarge => 3
  | .undefinedOpcode => 1
  | .reservedBitsSet => 2

/-- `raise KIND(sub)` inside a short command (R171): ERR is written and nothing else. -/
def State.raise (s : State) (e : ErrCause) : State := { s with errCode := e.code, errSub := e.sub }

/-- `fail(kind, sub)`, the failure entry of a run (R156). `emit E` (R10) puts E at the end of the output trace. -/
def State.fail (s : State) (e : ErrCause) : State :=
  { s with errCode := e.code, errSub := e.sub, fsm := .failed, phase := .done, trace := s.trace ++ [.close] }

/-- How a short command completes (R74, R171): with its writes, or with ERR alone and every other write discarded. -/
def State.settle (s : State) (r : Except ErrCause State) : State :=
  match r with
  | .ok t => t
  | .error e => s.raise e

/-- What an accepting CMD write does before the command executes (20_memory.md R51): `STATUS.REJ <- 0; ERR <- 0`. -/
def State.accept (s : State) : State := { s with rej := false, errCode := 0, errSub := 0 }

end Sys2Proof.Machine
end

