-- ==== Sys2Proof/Machine/Operands.lean ====
section
/-! DEFINITION. Every operand form of spec/30_encoding.md R72, "read at the step the command executes". "No operand is
sign-extended, scaled or shifted." -/

namespace Sys2Proof.Machine

open Sys2Proof

/-- `OPERAND[31:0]` as a uint32 value, an int32 bit pattern or a count (R72). -/
def State.operand32 (s : State) : Word := s.operand

/-- `OPERAND[7:0]` (R72). -/
def State.operand8 (s : State) : Byte := s.operand.extractLsb' 0 8

/-- `OPERAND[15:0]` (R72). -/
def State.operand16 (s : State) : Half := s.operand.extractLsb' 0 16

/-- The two bytes of a 16-bit field on the wire, most significant byte first (42_frame_builder.md R105; R64). -/
def u16be (v : Half) : List Byte := [v.extractLsb' 8 8, v.extractLsb' 0 8]

/-- `STR[0 .. STR_LEN-1]` (R72). -/
def State.strBytes (s : State) : List Byte := s.bytesFrom .str 0 s.strLen.toNat

/-- STR as a command's operand: "Every command that consumes STR with STR_LEN > 256 fails with CAPACITY_ERROR sub-cause 1"
(10_state.md R32). -/
def State.strRun (s : State) : Except ErrCause (List Byte) :=
  if s.strLen.toNat > Config.strBufBytes then .error .strTooLong else .ok s.strBytes

/-- `VB(k)`, varint byte k of the VBYTES window (10_state.md R27). -/
def State.vb (s : State) (k : Nat) : Byte := if k < 4 then byteOf s.vbytesLo k else s.vbytesHi

/-- VDEC's byte source (41_varint.md R93): VB(0), VB(1), ...; "never fails: 5 bytes always present". -/
def State.vbSource (s : State) (k : Nat) : Except ErrCause Byte := .ok (s.vb k)

/-- The reader's byte source (43_frame_parser.md R120): pull number `k` of a read that starts at RX_CURSOR. -/
def State.readerSource (s : State) (k : Nat) : Except ErrCause Byte :=
  if s.rxCursor.toNat + k ≥ s.rxFrameLen.toNat then .error .readPastEnd
  else .ok (s.byteAt .rx (s.rxCursor.toNat + k))

/-- The bytes that remain in the reader, `RX_FRAME_LEN - RX_CURSOR` (R34). A cursor past the limit, which no run reaches
(R41), leaves none (log 19). -/
def State.remaining (s : State) : Nat := s.rxFrameLen.toNat - s.rxCursor.toNat

end Sys2Proof.Machine
end

