-- ==== Sys2Proof/Machine/Varint.lean ====
section
/-! DEFINITION. varint_encoder and varint_decoder: the algorithms of spec/41_varint.md R90 and R91, and the commands VENC
and VDEC (R92, R93). -/

namespace Sys2Proof.Machine

open Sys2Proof

/-- The loop of R90 with its bound: "The loop runs at most 5 times, because a uint32 has 32 bits". -/
def vencLoop (fuel : Nat) (v : Word) : List Byte :=
  match fuel with
  | 0 => []
  | n + 1 =>
    let b : Byte := (v.extractLsb' 0 7).setWidth 8
    let rest := v >>> 7
    if rest ≠ 0 then (b ||| 0x80) :: vencLoop n rest else [b]

/-- `venc(v)` (R90). -/
def venc (v : Word) : List Byte := vencLoop 5 v

/-- What pulled byte number `k` adds to the accumulator (R91): its low 7 bits at bit 7k, or for the fifth byte "only its
low 4 bits" at bit 28. -/
def vdecAccumulate (acc : Word) (k : Nat) (b : Byte) : Word :=
  if k < 4 then acc ||| ((b.extractLsb' 0 7).setWidth 32 <<< (7 * k))
  else acc ||| ((b.extractLsb' 0 4).setWidth 32 <<< 28)

/-- The continuation bit, `b[7]` (30_encoding.md R75). -/
def continues (b : Byte) : Bool := b.getLsbD 7

/-- The loop of R91 from byte `k` on, `fuel` bytes still allowed: a failed pull ends it with the source's error, and a
fifth byte that continues is OVERLONG_VARINT. -/
def vdecLoop (pull : Nat → Except ErrCause Byte) (fuel k : Nat) (acc : Word) : Except ErrCause (Word × Nat) :=
  match fuel with
  | 0 => .error .overlongVarint
  | n + 1 =>
    match pull k with
    | .error e => .error e
    | .ok b =>
      if continues b then vdecLoop pull n (k + 1) (vdecAccumulate acc k b)
      else .ok (vdecAccumulate acc k b, k + 1)

/-- `vdec(pull)` (R91): the value and the number of bytes pulled. `pull k` is what the source answers to pull number k. -/
def vdec (pull : Nat → Except ErrCause Byte) : Except ErrCause (Word × Nat) := vdecLoop pull 5 0 0

/-- The varint byte window after an encode (R92): bytes past the encoding are cleared. -/
def State.putVarint (s : State) (e : List Byte) : State :=
  { s with
    vbytesLo := packBytes (e.getD 0 0) (e.getD 1 0) (e.getD 2 0) (e.getD 3 0)
    vbytesHi := e.getD 4 0
    vlen := BitVec.ofNat 3 e.length }

/-- VENC (R92). -/
def execVenc (s : State) : Outcome := .next (s.putVarint (venc s.operand32))

/-- VDEC's writes (R93): RESULT and VLEN; "The VLEN input is ignored". -/
def State.decodeWindow (s : State) : Except ErrCause State :=
  match vdec s.vbSource with
  | .error e => .error e
  | .ok (v, n) => .ok { s with result := v, vlen := BitVec.ofNat 3 n }

/-- VDEC (R93). -/
def execVdec (s : State) : Outcome := .next (s.settle s.decodeWindow)

end Sys2Proof.Machine
end

