-- ==== Sys2Proof/Machine/FrameBuilder.lean ====
section
/-! DEFINITION. frame_builder: the append primitive, the seven FB commands, the frame view and the two frames the
handshake_fsm builds (spec/42_frame_builder.md R100 to R111). -/

namespace Sys2Proof.Machine

open Sys2Proof

/-- The writes of a successful append (R100). -/
def State.appended (s : State) (bs : List Byte) : State :=
  { s.writeBody s.txBodyLen.toNat bs with
    txBodyLen := BitVec.ofNat 10 (s.txBodyLen.toNat + bs.length)
    frameValid := false
    txFrameLen := 0 }

/-- `append(s)` (R100): "It adds all of s or nothing." -/
def State.append (s : State) (bs : List Byte) : Except ErrCause State :=
  if s.txBodyLen.toNat + bs.length > Config.txBodyMax then .error .txBodyFull else .ok (s.appended bs)

/-- FB_RESET's writes (R101). -/
def State.builderReset (s : State) : State :=
  { s with txBodyLen := 0, plen := 0, txFrameLen := 0, frameValid := false }

/-- FB_WSTR's append (R106): the length-prefixed string in one append. -/
def State.appendString (s : State) : Except ErrCause State :=
  match s.strRun with
  | .error e => .error e
  | .ok bs => s.append (venc (s.strLen.setWidth 32) ++ bs)

/-- FB_WBYTES's append (R103). -/
def State.appendRun (s : State) : Except ErrCause State :=
  match s.strRun with
  | .error e => .error e
  | .ok bs => s.append bs

/-- FB_FINISH's writes (R107): the prefix of the body's length, and a valid frame. PFX bytes past the prefix keep their
values (00_scope.md R11). -/
def State.finish (s : State) : State :=
  let p := venc (s.txBodyLen.setWidth 32)
  { s with
    pfx := p ++ s.pfx.drop p.length
    plen := BitVec.ofNat 3 p.length
    txFrameLen := BitVec.ofNat 11 (p.length + s.txBodyLen.toNat)
    frameValid := true }

/-- FB_RESET (R101). -/
def execFbReset (s : State) : Outcome := .next s.builderReset

/-- FB_WBYTE (R102). -/
def execFbWbyte (s : State) : Outcome := .next (s.settle (s.append [s.operand8]))

/-- FB_WBYTES (R103). -/
def execFbWbytes (s : State) : Outcome := .next (s.settle s.appendRun)

/-- FB_WVARINT (R104). -/
def execFbWvarint (s : State) : Outcome := .next (s.settle (s.append (venc s.operand32)))

/-- FB_WU16BE (R105). -/
def execFbWu16be (s : State) : Outcome := .next (s.settle (s.append (u16be s.operand16)))

/-- FB_WSTR (R106). -/
def execFbWstr (s : State) : Outcome := .next (s.settle s.appendString)

/-- FB_FINISH (R107). -/
def execFbFinish (s : State) : Outcome := .next s.finish

/-- `frame_byte(i)` (R108). -/
def State.frameByte (s : State) (i : Nat) : Byte :=
  if i < s.plen.toNat then s.pfx.getD i 0 else s.byteAt .body (i - s.plen.toNat)

/-- `txbyte(i)`, byte i of the TX frame window (20_memory.md R56). -/
def State.txWindowByte (s : State) (i : Nat) : Byte :=
  if s.frameValid = true ∧ i < s.txFrameLen.toNat then s.frameByte i else 0

/-- BuildHandshake (R110): "exactly that of this sequence" of builder operations. It answers an error only in states no
run reaches (log 9). -/
def State.buildHandshake (s : State) : Except ErrCause State := do
  let s ← s.builderReset.append (venc 0)
  let s ← s.append (venc s.protoVer)
  let s ← s.appendString
  let s ← s.append (u16be s.port)
  let s ← s.append (venc 1)
  return s.finish

/-- BuildStatusRequest (R111): "exactly that of `FB_RESET; FB_WVARINT 0x00; FB_FINISH`". -/
def State.buildStatusRequest (s : State) : State := (s.builderReset.appended (venc 0)).finish

end Sys2Proof.Machine
end

