-- ==== Sys2Proof/Machine/FrameParser.lean ====
section
/-! DEFINITION. frame_parser: the five FP commands over the reader (spec/43_frame_parser.md R120 to R125). Stream
reassembly and the response parse (R126 to R131) are steps of a run and stand in Handshake.lean. -/

namespace Sys2Proof.Machine

open Sys2Proof

/-- FP_LOAD's writes (R121). -/
def State.loadReader (s : State) : Except ErrCause State :=
  if s.operand32.toNat > Config.rxBufBytes then .error .rxLengthTooLarge
  else .ok { s with rxFrameLen := BitVec.ofNat 16 s.operand32.toNat, rxCursor := 0 }

/-- FP_RBYTE's writes (R122): one pull, zero-extended into RESULT. -/
def State.readByte (s : State) : Except ErrCause State :=
  match s.readerSource 0 with
  | .error e => .error e
  | .ok b => .ok { s with result := b.setWidth 32, rxCursor := BitVec.ofNat 16 (s.rxCursor.toNat + 1) }

/-- The writes of FP_RBYTES and FP_RSTR (R123, R125): a span of `n` bytes, compared before any narrowing. R123: "n = 0 succeeds with
SPAN = (RX_CURSOR, 0) and no advance", over the empty reader too, where R121, R190 and 92 D19 speak of every read failing: DEDUCED,
log 20. -/
def State.readSpan (s : State) (n : Nat) : Except ErrCause State :=
  if n > s.remaining then .error .readPastEnd
  else .ok { s with
    spanOff := s.rxCursor
    spanLen := BitVec.ofNat 16 n
    rxCursor := BitVec.ofNat 16 (s.rxCursor.toNat + n) }

/-- FP_RVARINT's writes (R124): `vdec` over the reader's byte source. -/
def State.readVarint (s : State) : Except ErrCause State :=
  match vdec s.readerSource with
  | .error e => .error e
  | .ok (v, k) => .ok { s with result := v, rxCursor := BitVec.ofNat 16 (s.rxCursor.toNat + k) }

/-- FP_LOAD (R121). -/
def execFpLoad (s : State) : Outcome := .next (s.settle s.loadReader)

/-- FP_RBYTE (R122). -/
def execFpRbyte (s : State) : Outcome := .next (s.settle s.readByte)

/-- FP_RBYTES (R123). -/
def execFpRbytes (s : State) : Outcome := .next (s.settle (s.readSpan s.operand32.toNat))

/-- FP_RVARINT (R124). -/
def execFpRvarint (s : State) : Outcome := .next (s.settle s.readVarint)

/-- FP_RSTR (R125): "identical to rule R123 with n = byteLength"; UTF-8 is neither checked nor changed. -/
def execFpRstr (s : State) : Outcome := .next (s.settle (s.readSpan s.operand32.toNat))

end Sys2Proof.Machine
end

