-- ==== Sys2Proof/Machine/Handshake.lean ====
section
/-! DEFINITION. handshake_fsm: HS_START and the effects of the transport and timebase events (spec/44_handshake_fsm.md
R142 to R157), with the stream reassembly and the response parse of spec/43_frame_parser.md R126 to R131. -/

namespace Sys2Proof.Machine

open Sys2Proof

/-- The second branch of HS_START (R142): a fresh attempt. -/
def State.startRun (s : State) : State :=
  { s with
    fsm := .idle
    phase := .connecting
    timer := 0
    txSent := 0
    trace := s.trace ++ [.connReq s.strBytes s.port] }

/-- HS_START (R142): the start check fails the attempt at once, or the run begins. -/
def execHsStart (s : State) : Outcome :=
  .next (if s.strLen.toNat > Config.strBufBytes then s.fail .strTooLong else s.startRun)

/-- `success()` (R153). -/
def State.success (s : State) : State :=
  { s with fsm := .responseReceived, phase := .done, trace := s.trace ++ [.close] }

/-- ConnOk (R143). A BuildHandshake that cannot be built, in states no run reaches, fails the run (log 9). -/
def State.connOk (s : State) : State :=
  match State.buildHandshake { s with fsm := .connected } with
  | .error e => s.fail e
  | .ok t => { t with txSent := 0, phase := .sendHs }

/-- `handshake_sent()` (R146). -/
def State.handshakeSent (s : State) : State :=
  { State.buildStatusRequest { s with fsm := .handshakeSent } with txSent := 0, phase := .sendSr }

/-- `request_sent()` (R147). -/
def State.requestSent (s : State) : State :=
  { s with
    fsm := .statusRequested
    phase := .recvLen
    timer := 0
    lacc := 0
    lcnt := 0
    rxFrameLen := 0
    rxRcvd := 0
    rxCursor := 0 }

/-- TxAccept (R145): the byte the block offers goes out, and the last byte of a frame ends its send phase. -/
def State.txAccept (s : State) : State :=
  let t : State := { s with
    trace := s.trace ++ [.txByte (s.frameByte s.txSent.toNat)]
    txSent := BitVec.ofNat 11 (s.txSent.toNat + 1) }
  if t.txSent = t.txFrameLen then (if t.phase = .sendHs then t.handshakeSent else t.requestSent) else t

/-- `complete()` (R130): the parse of a received Status Response body. A successful read's writes stay when a later check
fails (log 8). -/
def State.complete (s : State) : State :=
  let s0 : State := { s with rxCursor := 0 }
  match s0.readVarint with
  | .error e => s0.fail e
  | .ok s1 =>
    if s1.result ≠ 0 then s1.fail .unexpectedPacketId
    else
      match s1.readVarint with
      | .error e => s1.fail e
      | .ok s2 =>
        match s2.readSpan s2.result.toNat with
        | .error e => s2.fail e
        | .ok s3 => s3.success

/-- RxByte in RECV_LEN (R126): one byte of the frame's length prefix. -/
def State.rxLengthByte (s : State) (b : Byte) : State :=
  let t : State := { s with
    lacc := vdecAccumulate s.lacc s.lcnt.toNat b
    lcnt := BitVec.ofNat 3 (s.lcnt.toNat + 1) }
  if continues b then (if t.lcnt = 5 then t.fail .overlongVarint else t)
  else if t.lacc.toNat > Config.rxBufBytes then t.fail .rxLengthTooLarge
  else
    let u : State := { t with rxFrameLen := BitVec.ofNat 16 t.lacc.toNat, rxRcvd := 0 }
    if t.lacc = 0 then u.complete else { u with phase := .recvBody }

/-- RxByte in RECV_BODY (R127): one body byte; the last one is parsed in the same step. -/
def State.rxBodyByte (s : State) (b : Byte) : State :=
  let t : State := { s.writeRx s.rxRcvd.toNat [b] with rxRcvd := BitVec.ofNat 16 (s.rxRcvd.toNat + 1) }
  if t.rxRcvd = t.rxFrameLen then t.complete else t

/-- RxByte (R148). -/
def State.rxByte (s : State) (b : Byte) : State :=
  if s.phase = .recvLen then s.rxLengthByte b else s.rxBodyByte b

/-- TIMER's increment (R30, R151): "It saturates at 0xFFFFFFFF." -/
def timerNext (t : Word) : Word := BitVec.ofNat 32 (min (t.toNat + 1) 0xFFFFFFFF)

/-- Tick (R151). -/
def State.tick (s : State) : State :=
  match s.phase with
  | .connecting =>
    let t : State := { s with timer := timerNext s.timer }
    if t.timer.toNat ≥ t.connectTimeout.toNat then t.fail .connectTimeout else t
  | .recvLen | .recvBody =>
    let t : State := { s with timer := timerNext s.timer }
    if t.timer.toNat ≥ t.readTimeout.toNat then t.fail .readTimeout else t
  | .idle | .sendHs | .sendSr | .done => s

/-- In which phases a transport event is enabled (R157). Tick always is; a host access and a reset can always be taken
(R160, R190). The transport's duties of R158 are not enforced (log 14). -/
def enabled (i : Input) (p : Phase) : Bool :=
  match i with
  | .connOk | .connFail => decide (p = .connecting)
  | .txAccept => decide (p = .sendHs ∨ p = .sendSr)
  | .rxByte _ | .rxEos => decide (p = .recvLen ∨ p = .recvBody)
  | .ioErr => decide (p = .sendHs ∨ p = .sendSr ∨ p = .recvLen ∨ p = .recvBody)
  | .tick | .read32 _ | .write32 _ _ | .reset => true

end Sys2Proof.Machine
end

