-- ==== Sys2Proof/Machine/Dispatch.lean ====
section
/-! DEFINITION. exec: one arm per command of spec/opcode_table.json, each one call of its meaning (spec/30_encoding.md R73:
"perform the rule named in the opc's row of rule R71"). -/

namespace Sys2Proof.Machine

open Sys2Proof

def exec (i : Instr) (s : State) : Host.Outcome State Fault Refusal :=
  match i with
  | .venc => Sys2Proof.Machine.execVenc s
  | .vdec => Sys2Proof.Machine.execVdec s
  | .fbReset => Sys2Proof.Machine.execFbReset s
  | .fbWbyte => Sys2Proof.Machine.execFbWbyte s
  | .fbWbytes => Sys2Proof.Machine.execFbWbytes s
  | .fbWvarint => Sys2Proof.Machine.execFbWvarint s
  | .fbWu16be => Sys2Proof.Machine.execFbWu16be s
  | .fbWstr => Sys2Proof.Machine.execFbWstr s
  | .fbFinish => Sys2Proof.Machine.execFbFinish s
  | .fpLoad => Sys2Proof.Machine.execFpLoad s
  | .fpRbyte => Sys2Proof.Machine.execFpRbyte s
  | .fpRbytes => Sys2Proof.Machine.execFpRbytes s
  | .fpRvarint => Sys2Proof.Machine.execFpRvarint s
  | .fpRstr => Sys2Proof.Machine.execFpRstr s
  | .hsStart => Sys2Proof.Machine.execHsStart s

end Sys2Proof.Machine
end

