-- ==== Sys2Proof/Machine/Bus.lean ====
section
/-! DEFINITION. The host bus: the register map, the byte windows, Read32, Write32 and the acceptance of a command
(spec/20_memory.md R50 to R59; spec/10_state.md R21; spec/30_encoding.md R73), and the external reset (spec/70_reset_and_hazards.md R190). -/

namespace Sys2Proof.Machine

open Sys2Proof

/-- The host-visible registers of 10_state.md R21. -/
inductive Reg where
  | cmd | operand | status | err | result | vbytesLo | vbytesHi | vlen | protoVer | port | connectTimeout | readTimeout
  | strLen | txBodyLen | txFrameLen | txSent | rxFrameLen | rxRcvd | rxCursor | spanOff | spanLen | timer
deriving DecidableEq, Repr

/-- The register at a word offset (R21, R52); none where the map has no register. -/
def regAt (w : Nat) : Option Reg :=
  match w with
  | 0x0000 => some .cmd
  | 0x0004 => some .operand
  | 0x0008 => some .status
  | 0x000C => some .err
  | 0x0010 => some .result
  | 0x0014 => some .vbytesLo
  | 0x0018 => some .vbytesHi
  | 0x001C => some .vlen
  | 0x0020 => some .protoVer
  | 0x0024 => some .port
  | 0x0028 => some .connectTimeout
  | 0x002C => some .readTimeout
  | 0x0030 => some .strLen
  | 0x0034 => some .txBodyLen
  | 0x0038 => some .txFrameLen
  | 0x003C => some .txSent
  | 0x0040 => some .rxFrameLen
  | 0x0044 => some .rxRcvd
  | 0x0048 => some .rxCursor
  | 0x004C => some .spanOff
  | 0x0050 => some .spanLen
  | 0x0054 => some .timer
  | _ => none

/-- What a host read of a register returns (R21): its bits zero-extended, 0 for the write-only CMD (R22, R53). -/
def State.readReg (s : State) (r : Reg) : Word :=
  match r with
  | .cmd => 0
  | .operand => s.operand
  | .status => s.status
  | .err => s.err
  | .result => s.result
  | .vbytesLo => s.vbytesLo
  | .vbytesHi => s.vbytesHi.setWidth 32
  | .vlen => s.vlen.setWidth 32
  | .protoVer => s.protoVer
  | .port => s.port.setWidth 32
  | .connectTimeout => s.connectTimeout
  | .readTimeout => s.readTimeout
  | .strLen => s.strLen.setWidth 32
  | .txBodyLen => s.txBodyLen.setWidth 32
  | .txFrameLen => s.txFrameLen.setWidth 32
  | .txSent => s.txSent.setWidth 32
  | .rxFrameLen => s.rxFrameLen.setWidth 32
  | .rxRcvd => s.rxRcvd.setWidth 32
  | .rxCursor => s.rxCursor.setWidth 32
  | .spanOff => s.spanOff.setWidth 32
  | .spanLen => s.spanLen.setWidth 32
  | .timer => s.timer

/-- What a host write to a register stores while not BUSY (R21, R51): "keeping only the bits the target holds"; a write
to an RO register is ignored (R53). CMD stores nothing: its write is the command (R51, `busWrite`). -/
def State.writeReg (s : State) (r : Reg) (v : Word) : State :=
  match r with
  | .operand => { s with operand := v }
  | .vbytesLo => { s with vbytesLo := v }
  | .vbytesHi => { s with vbytesHi := v.extractLsb' 0 8 }
  | .protoVer => { s with protoVer := v }
  | .port => { s with port := v.extractLsb' 0 16 }
  | .connectTimeout => { s with connectTimeout := v }
  | .readTimeout => { s with readTimeout := v }
  | .strLen => { s with strLen := v.extractLsb' 0 9 }
  | .cmd | .status | .err | .result | .vlen | .txBodyLen | .txFrameLen | .txSent | .rxFrameLen | .rxRcvd | .rxCursor
  | .spanOff | .spanLen | .timer => s

/-- "The block ignores `off[1:0]`, so the access goes to the word at `off & 0xFFFC`" (R50, R51). -/
def wordOffset (off : Half) : Nat := (off &&& 0xFFFC).toNat

/-- The little-endian word of four window bytes from `i` on (R54). -/
def packFrom (f : Nat → Byte) (i : Nat) : Word := packBytes (f i) (f (i + 1)) (f (i + 2)) (f (i + 3))

/-- The value of the word at word offset `w` (R52, R55 to R57): registers, STR window, TX frame window, RX window, and 0
everywhere else (R53). -/
def State.readWord (s : State) (w : Nat) : Word :=
  match regAt w with
  | some r => s.readReg r
  | none =>
    if 0x0100 ≤ w ∧ w < 0x0200 then packFrom (s.byteAt .str) (w - 0x0100)
    else if 0x0400 ≤ w ∧ w < 0x0800 then packFrom s.txWindowByte (w - 0x0400)
    else if 0x8000 ≤ w ∧ w < 0x10000 then packFrom (s.byteAt .rx) (w - 0x8000)
    else 0

/-- "store v per the address map" (R51, R52, R55, R57): writes to the TX window and to unmapped words are ignored. -/
def State.writeWord (s : State) (w : Nat) (v : Word) : State :=
  match regAt w with
  | some r => s.writeReg r v
  | none =>
    if 0x0100 ≤ w ∧ w < 0x0200 then s.writeStr (w - 0x0100) (bytesOfWord v)
    else if 0x8000 ≤ w ∧ w < 0x10000 then s.writeRx (w - 0x8000) (bytesOfWord v)
    else s

/-- `Read32(off)` (R50): "A read has no side effect on any state of the block"; the word it returns goes on the model's
read log (log 7). -/
def State.busRead (s : State) (off : Half) : State := { s with reads := s.reads ++ [s.readWord (wordOffset off)] }

/-- `execute(v)` of R73, ERR and REJ already cleared by the accepting write: an illegal word "changes nothing except ERR". -/
def execute (v : Word) (s : State) : Outcome :=
  match decode v with
  | .ok i => exec i s
  | .error .undefinedOpcode => .next (s.raise .undefinedOpcode)
  | .error .reservedBitsSet => .next (s.raise .reservedBitsSet)

/-- `Write32(off, v)` (R51): a command is rejected while BUSY and otherwise accepted and executed; every other write is
ignored while BUSY (R58) and otherwise stored. -/
def busWrite (off : Half) (v : Word) (s : State) : Outcome :=
  if wordOffset off = 0 then
    if s.busy then .next { s with rej := true } else execute v s.accept
  else if s.busy then .next s
  else .next (s.writeWord (wordOffset off) v)

/-- Reset (R190): Close if a run was in progress, every register at its reset value, the buffers drawn anew (log 3). PFX is
named by no line of R190 and keeps its bytes (R11, log 6); the output trace is not erased (log 10). -/
def State.resetStep (s : State) : State :=
  { State.reset with
    pfx := s.pfx
    trace := if s.busy then s.trace ++ [.close] else s.trace
    draws := s.draws + 1
    inputs := s.inputs
    reads := s.reads }

end Sys2Proof.Machine
end

