-- ==== Sys2Proof/Machine/Events.lean ====
section
/-! DEFINITION. One step of the environment against the block (spec/20_memory.md R60; spec/44_handshake_fsm.md R140, R157). -/

namespace Sys2Proof.Machine

open Sys2Proof

/-- The effect of an environment step that is enabled. -/
def State.take (s : State) (i : Input) : Outcome :=
  match i with
  | .read32 off => .next (s.busRead off)
  | .write32 off v => busWrite off v s
  | .connOk => .next s.connOk
  | .connFail => .next (s.fail .connectFailed)
  | .txAccept => .next s.txAccept
  | .rxByte b => .next (s.rxByte b)
  | .rxEos => .next (s.fail .truncatedStream)
  | .ioErr => .next (s.fail .ioError)
  | .tick => .next s.tick
  | .reset => .next s.resetStep

/-- One environment step: "An event that is not enabled has **no step**" (R157; 93_implementation_defined.md item 25: refuse; log 2). -/
def State.react (s : State) (i : Input) : Outcome :=
  if enabled i s.phase then s.take i else .refused (.eventNotEnabled i)

end Sys2Proof.Machine
end

