-- ==== Sys2Proof/Machine/Step.lean ====
section
/-! DEFINITION. The step of the machine and the place a command is fetched from. The block fetches nothing (spec/20_memory.md
R62): a command arrives as a bus write, and the schedule of environment steps is where the next one stands (log 1). -/

namespace Sys2Proof.Machine

open Sys2Proof

/-- One step of the total order of R60: the next environment step of the schedule, if it is enabled. With nothing scheduled the
block waits, since its "state changes only at a host bus access or at a transport or timebase event" (00_scope.md R3). -/
def step (s : State) : Host.Outcome State Fault Refusal :=
  match s.inputs with
  | [] => .next s
  | i :: rest => State.react { s with inputs := rest } i

/-- `s` with a CMD write of the word `w` (its low `nbits`) as the next scheduled step, so that the next step decodes and runs
it. A BUSY block takes no command (R51), so a run in progress is put aside: PHASE and FSM go to Idle (log 11). -/
def State.withFetchWord (s : State) (nbits w : Nat) : State :=
  { s with
    inputs := .write32 0 (BitVec.ofNat 32 (w % 2 ^ nbits)) :: s.inputs
    phase := if s.busy then .idle else s.phase
    fsm := if s.busy then .idle else s.fsm }

end Sys2Proof.Machine
end

