-- ==== Sys2Proof/Safety.lean ====
section
/-! DEFINITION. The words claims are stated in: what leaves buffer bytes alone, what an append leaves behind, when bytes hold a
varint, the FSM and PHASE table, and what a sound state is (spec/10_state.md R41). -/

namespace Sys2Proof.Machine

open Sys2Proof

/-! ### Buffers and frames -/

/-- Every byte of a buffer reads in `t` as it read in `s`. -/
def SameBytes (b : Config.Buffer) (s t : State) : Prop := ∀ i, t.byteAt b i = s.byteAt b i

/-- Every byte of a buffer but the `n` from `lo` on reads in `t` as it read in `s`. -/
def SameBytesOutside (b : Config.Buffer) (lo n : Nat) (s t : State) : Prop :=
  ∀ i, (i < lo ∨ lo + n ≤ i) → t.byteAt b i = s.byteAt b i

/-- The body `BODY[0 .. TX_BODY_LEN-1]` (10_state.md R37). -/
def State.bodyBytes (s : State) : List Byte := s.bytesFrom .body 0 s.txBodyLen.toNat

/-- The frame `frame_byte(0) .. frame_byte(TX_FRAME_LEN-1)` (42_frame_builder.md R108). -/
def State.frameBytes (s : State) : List Byte := (List.range s.txFrameLen.toNat).map s.frameByte

/-- `t` is `s` after `append(bs)` succeeded (42_frame_builder.md R100): the body is longer by `bs`, FRAME_VALID and TX_FRAME_LEN
are cleared, and nothing else differs. -/
def BodyAppended (s t : State) (bs : List Byte) : Prop :=
  t.bodyBytes = s.bodyBytes ++ bs ∧
  t.txBodyLen.toNat = s.txBodyLen.toNat + bs.length ∧
  SameBytesOutside .body s.txBodyLen.toNat bs.length s t ∧ SameBytes .str s t ∧ SameBytes .rx s t ∧
  t = { s with body := t.body, txBodyLen := t.txBodyLen, frameValid := false, txFrameLen := 0 }

/-! ### Varints -/

/-- The bytes `f 0, f 1, ...` begin with a varint of `n + 1` bytes, at most five, whose value is `v` (30_encoding.md R75,
41_varint.md R91): the first `n` bytes continue, byte `n` does not, and bit `m` of the value is bit `m % 7` of byte `m / 7`, so
that a fifth byte gives its low 4 bits alone. -/
def HoldsVarint (f : Nat → Byte) (n : Nat) (v : Word) : Prop :=
  n < 5 ∧ (∀ j, j < n → (f j).getLsbD 7 = true) ∧ (f n).getLsbD 7 = false ∧
  ∀ m, m < 32 → v.getLsbD m = (decide (m / 7 ≤ n) && (f (m / 7)).getLsbD (m % 7))

/-! ### FSM and PHASE -/

/-- The FSM state each phase goes with (44_handshake_fsm.md R141; 10_state.md R41). -/
def fsmFits (f : Fsm) (p : Phase) : Bool :=
  match p with
  | .idle | .connecting => decide (f = .idle)
  | .sendHs => decide (f = .connected)
  | .sendSr => decide (f = .handshakeSent)
  | .recvLen | .recvBody => decide (f = .statusRequested)
  | .done => decide (f = .responseReceived ∨ f = .failed)

/-- The step is an HS_START command written to CMD (30_encoding.md R71). -/
def IsHsStart (i : Input) : Prop := ∃ off, i = .write32 off 0x00000030 ∧ off &&& 0xFFFC = 0

/-- The accumulator of the length prefix after the byte `b`, number LCNT of the prefix (43_frame_parser.md R126). -/
def State.prefixValue (s : State) (b : Byte) : Word :=
  if s.lcnt.toNat < 4 then s.lacc ||| ((b.extractLsb' 0 7).setWidth 32 <<< (7 * s.lcnt.toNat))
  else s.lacc ||| ((b.extractLsb' 0 4).setWidth 32 <<< 28)

/-- The byte `b` completes the frame: it is the body's last (43_frame_parser.md R127), or it ends a length prefix of 0 (R126). -/
def FrameCompletes (s : State) (b : Byte) : Prop :=
  (s.phase = .recvBody ∧ s.rxRcvd.toNat + 1 = s.rxFrameLen.toNat) ∨
  (s.phase = .recvLen ∧ b.getLsbD 7 = false ∧ s.prefixValue b = 0)

/-- The `len` bytes `f 0, f 1, ...` are a Status Response body whose parse succeeds (43_frame_parser.md R130): a packetID varint of
value 0, a jsonLength varint behind it, and that many bytes behind that. Bytes past them do not matter (R131). -/
def ResponseParses (f : Nat → Byte) (len : Nat) : Prop :=
  ∃ (n m : Nat) (v : Word), HoldsVarint f n 0 ∧ HoldsVarint (fun j => f (n + 1 + j)) m v ∧ n + m + 2 + v.toNat ≤ len

/-- The body that the byte `b` completes parses: the bytes of RX with `b` behind those received, or no byte at all where the length
prefix said 0. -/
def CompletedBodyParses (s : State) (b : Byte) : Prop :=
  ResponseParses (fun j => if j = s.rxRcvd.toNat then b else s.byteAt .rx j)
    (if s.phase = .recvBody then s.rxFrameLen.toNat else 0)

/-- TIMER counted one tick further reaches the timeout `limit` (44_handshake_fsm.md R151). -/
def TimerReaches (s : State) (limit : Word) : Prop := limit.toNat ≤ min (s.timer.toNat + 1) 0xFFFFFFFF

/-- A row of the transition table of 44_handshake_fsm.md R141: the FSM and PHASE it leaves, its step, its condition (on the state
before the step alone) and the FSM and PHASE it goes to. -/
def TransitionRow (i : Input) (s t : State) : Prop :=
  (IsHsStart i ∧ (s.phase = .idle ∨ s.phase = .done) ∧ s.strLen.toNat > 256 ∧ t.fsm = .failed ∧ t.phase = .done) ∨
  (IsHsStart i ∧ (s.phase = .idle ∨ s.phase = .done) ∧ s.strLen.toNat ≤ 256 ∧ t.fsm = .idle ∧ t.phase = .connecting) ∨
  (i = .connOk ∧ s.fsm = .idle ∧ s.phase = .connecting ∧ t.fsm = .connected ∧ t.phase = .sendHs) ∨
  (i = .connFail ∧ s.fsm = .idle ∧ s.phase = .connecting ∧ t.fsm = .failed ∧ t.phase = .done) ∨
  (i = .tick ∧ s.fsm = .idle ∧ s.phase = .connecting ∧ TimerReaches s s.connectTimeout ∧ t.fsm = .failed ∧
    t.phase = .done) ∨
  (i = .txAccept ∧ s.fsm = .connected ∧ s.phase = .sendHs ∧ s.txSent.toNat + 1 = s.txFrameLen.toNat ∧
    t.fsm = .handshakeSent ∧ t.phase = .sendSr) ∨
  (i = .txAccept ∧ s.fsm = .handshakeSent ∧ s.phase = .sendSr ∧ s.txSent.toNat + 1 = s.txFrameLen.toNat ∧
    t.fsm = .statusRequested ∧ t.phase = .recvLen) ∨
  (∃ b, i = .rxByte b ∧ s.fsm = .statusRequested ∧ s.phase = .recvLen ∧
    (b.getLsbD 7 = false ∧ 0 < (s.prefixValue b).toNat ∧ (s.prefixValue b).toNat ≤ 32768) ∧
    t.fsm = .statusRequested ∧ t.phase = .recvBody) ∨
  (∃ b, i = .rxByte b ∧ s.fsm = .statusRequested ∧ (s.phase = .recvLen ∨ s.phase = .recvBody) ∧
    (FrameCompletes s b ∧ CompletedBodyParses s b) ∧ t.fsm = .responseReceived ∧ t.phase = .done) ∨
  (∃ b, i = .rxByte b ∧ s.fsm = .statusRequested ∧ (s.phase = .recvLen ∨ s.phase = .recvBody) ∧
    ((s.phase = .recvLen ∧ b.getLsbD 7 = true ∧ s.lcnt.toNat = 4) ∨
      (s.phase = .recvLen ∧ b.getLsbD 7 = false ∧ 32768 < (s.prefixValue b).toNat) ∨
      (FrameCompletes s b ∧ ¬ CompletedBodyParses s b)) ∧
    t.fsm = .failed ∧ t.phase = .done) ∨
  (i = .rxEos ∧ s.fsm = .statusRequested ∧ (s.phase = .recvLen ∨ s.phase = .recvBody) ∧ t.fsm = .failed ∧
    t.phase = .done) ∨
  (i = .tick ∧ s.fsm = .statusRequested ∧ (s.phase = .recvLen ∨ s.phase = .recvBody) ∧ TimerReaches s s.readTimeout ∧
    t.fsm = .failed ∧ t.phase = .done) ∨
  (i = .ioErr ∧ (s.fsm = .connected ∨ s.fsm = .handshakeSent ∨ s.fsm = .statusRequested) ∧
    (s.phase = .sendHs ∨ s.phase = .sendSr ∨ s.phase = .recvLen ∨ s.phase = .recvBody) ∧ t.fsm = .failed ∧
    t.phase = .done)

/-! ### Sound states -/

/-- The (CODE, SUB) pairs of 60_exceptions.md R170. -/
def errListed (code sub : BitVec 4) : Bool :=
  match code.toNat with
  | 0 => decide (sub.toNat = 0)
  | 1 => decide (1 ≤ sub.toNat ∧ sub.toNat ≤ 3)
  | 2 => decide (sub.toNat = 0)
  | 3 => decide (1 ≤ sub.toNat ∧ sub.toNat ≤ 4)
  | 4 => decide (1 ≤ sub.toNat ∧ sub.toNat ≤ 3)
  | 5 => decide (1 ≤ sub.toNat ∧ sub.toNat ≤ 2)
  | _ => false

/-- Every buffer has the canonical form (log 4). -/
def BuffersWf (s : State) : Prop :=
  Mem.wf 256 s.str = true ∧ Mem.wf 1022 s.body = true ∧ Mem.wf 32768 s.rx = true

/-- The invariants of 10_state.md R41, with what makes them hold from step to step. -/
structure Inv (s : State) : Prop where
  /-- R41 -/
  body_len : s.txBodyLen.toNat ≤ 1022
  /-- R41, R33 -/
  frame_len : s.frameValid = true → s.txFrameLen.toNat = s.plen.toNat + s.txBodyLen.toNat ∧ s.txFrameLen.toNat ≤ 1024
  /-- R33: TX_FRAME_LEN "is 0 when STATUS.FRAME_VALID = 0" -/
  no_frame : s.frameValid = false → s.txFrameLen = 0
  /-- R37: "Once FB_FINISH has run, PFX = venc(TX_BODY_LEN)" -/
  frame_prefix : s.frameValid = true → s.pfx.take s.plen.toNat = venc (s.txBodyLen.setWidth 32)
  /-- R41 asks for TX_SENT <= TX_FRAME_LEN; between steps of a send a byte is always left to offer (R145) -/
  sending : s.phase = .sendHs ∨ s.phase = .sendSr → s.frameValid = true ∧ s.txSent.toNat < s.txFrameLen.toNat
  /-- R41, R34 -/
  reader : s.rxCursor.toNat ≤ s.rxFrameLen.toNat ∧ s.rxFrameLen.toNat ≤ 32768
  /-- R41: RX_RCVD <= RX_FRAME_LEN while receiving -/
  receiving_len : s.phase = .recvLen → s.rxRcvd.toNat ≤ s.rxFrameLen.toNat
  /-- R41, and between steps of the body a byte is always missing (R127) -/
  receiving_body : s.phase = .recvBody → s.rxRcvd.toNat < s.rxFrameLen.toNat
  /-- R147 clears the cursor on entry to RECV_LEN, and nothing moves it before the parse (R130) -/
  receiving_cursor : s.phase = .recvLen ∨ s.phase = .recvBody → s.rxCursor = 0
  /-- R41 -/
  prefix_count : s.phase = .recvLen → s.lcnt.toNat ≤ 4
  /-- R41, R141 -/
  fsm_phase : fsmFits s.fsm s.phase = true
  /-- R142's start check, kept by R58 -/
  address_fits : s.phase = .connecting → s.strLen.toNat ≤ 256
  /-- 60_exceptions.md R172: "After HS_START, ERR stays 0 while the run is in progress" -/
  no_error_in_run : s.busy = true → s.errCode = 0 ∧ s.errSub = 0
  /-- R37: PFX is five bytes -/
  prefix_size : s.pfx.length = 5
  /-- R27, R37, R39: VLEN, PLEN and LCNT count at most five bytes -/
  counts : s.vlen.toNat ≤ 5 ∧ s.plen.toNat ≤ 5 ∧ s.lcnt.toNat ≤ 5
  /-- R35: a span lies inside RX (FP_LOAD may later set a smaller RX_FRAME_LEN) -/
  span : s.spanOff.toNat + s.spanLen.toNat ≤ 32768

end Sys2Proof.Machine
end

