-- ==== Sys2Proof/Certificates/Slice0/Obligations.lean ====
section
/-! DEFINITION. The statements about the model, each from the numbered rules of spec/. -/

open Sys2Proof Sys2Proof.Machine

/-! ## Encoding and the command write -/

/-- 30_encoding.md R70, R71: a word decodes to a command exactly when it is that command's encoding, so every command's word
decodes back and no other word decodes to it. -/
def Obligations.DecodeAnswersExactlyTheEncoding : Prop :=
  ∀ (w : Word) (i : Instr), decode w = .ok i ↔ w = encode i

/-- The opcode map of R71, row by row on the words themselves, and "Every other OPC value is illegal". -/
def Obligations.OpcodeMap : Prop :=
  (decode 0x00000001 = .ok .venc ∧ decode 0x00000002 = .ok .vdec) ∧
  (decode 0x00000010 = .ok .fbReset ∧ decode 0x00000011 = .ok .fbWbyte ∧ decode 0x00000012 = .ok .fbWbytes ∧
    decode 0x00000013 = .ok .fbWvarint ∧ decode 0x00000014 = .ok .fbWu16be ∧ decode 0x00000015 = .ok .fbWstr ∧
    decode 0x00000016 = .ok .fbFinish) ∧
  (decode 0x00000020 = .ok .fpLoad ∧ decode 0x00000021 = .ok .fpRbyte ∧ decode 0x00000022 = .ok .fpRbytes ∧
    decode 0x00000023 = .ok .fpRvarint ∧ decode 0x00000024 = .ok .fpRstr) ∧
  decode 0x00000030 = .ok .hsStart ∧
  ∀ w : Word,
    w.extractLsb' 0 8 ∉ ([0x01, 0x02, 0x10, 0x11, 0x12, 0x13, 0x14, 0x15, 0x16, 0x20, 0x21, 0x22, 0x23, 0x24, 0x30] :
      List (BitVec 8)) →
    decode w = .error .undefinedOpcode

/-- R73, R176: an undefined opcode is ILLEGAL_COMMAND 1 whatever RSVD is, a defined one with RSVD set is ILLEGAL_COMMAND 2,
both change nothing but ERR, and every other word performs its command. -/
def Obligations.ExecuteClassifiesEveryWord : Prop :=
  ∀ (w : Word) (s : State),
    (w.extractLsb' 0 8 ∉ ([0x01, 0x02, 0x10, 0x11, 0x12, 0x13, 0x14, 0x15, 0x16, 0x20, 0x21, 0x22, 0x23, 0x24, 0x30] :
        List (BitVec 8)) →
      execute w s = .next { s with errCode := 5, errSub := 1 }) ∧
    (w.extractLsb' 0 8 ∈ ([0x01, 0x02, 0x10, 0x11, 0x12, 0x13, 0x14, 0x15, 0x16, 0x20, 0x21, 0x22, 0x23, 0x24, 0x30] :
        List (BitVec 8)) →
      (w.extractLsb' 8 24 ≠ 0 → execute w s = .next { s with errCode := 5, errSub := 2 }) ∧
      (w.extractLsb' 8 24 = 0 → ∃ i, decode w = .ok i ∧ (opcodeOf i) = w.extractLsb' 0 8 ∧ execute w s = exec i s))

/-- A CMD write that the block accepts (20_memory.md R51, 30_encoding.md R73): the step takes the write off the schedule, clears
REJ and ERR and executes the word there, whatever the word. Where it decodes to a command that is exec of the command; an illegal
word (R82) leaves its ILLEGAL_COMMAND in ERR, and nothing else. -/
def Obligations.StepRunsDecodedCommand : Prop :=
  ∀ (s : State) (off : Half) (w : Word) (rest : List Input),
    s.inputs = .write32 off w :: rest → off &&& 0xFFFC = 0 → s.busy = false →
    step s = execute w { s with inputs := rest, rej := false, errCode := 0, errSub := 0 } ∧
    (∀ i : Instr, i.wellFormed = true → decode w = .ok i →
      step s = exec i { s with inputs := rest, rej := false, errCode := 0, errSub := 0 }) ∧
    (w.extractLsb' 0 8 ∉ definedOpcodes →
      step s = .next { s with inputs := rest, rej := false, errCode := 5, errSub := 1 }) ∧
    (w.extractLsb' 0 8 ∈ definedOpcodes → w.extractLsb' 8 24 ≠ 0 →
      step s = .next { s with inputs := rest, rej := false, errCode := 5, errSub := 2 })

/-- 60_exceptions.md R181: a CMD write while BUSY sets REJ and nothing else, whatever the word. -/
def Obligations.CommandRejectedWhileBusy : Prop :=
  ∀ (s : State) (off : Half) (w : Word) (rest : List Input),
    s.inputs = .write32 off w :: rest → off &&& 0xFFFC = 0 → s.busy = true →
    step s = .next { s with inputs := rest, rej := true }

/-! ## The host bus -/

/-- 20_memory.md R58: while BUSY every host write other than to CMD is ignored, and no step of a run but Reset changes the
values a run reads. -/
def Obligations.HostWritesIgnoredWhileBusy : Prop :=
  (∀ (s : State) (off : Half) (v : Word) (rest : List Input),
    s.inputs = .write32 off v :: rest → off &&& 0xFFFC ≠ 0 → s.busy = true → step s = .next { s with inputs := rest }) ∧
  (∀ (s t : State), s.busy = true → (∀ rest, s.inputs ≠ .reset :: rest) → step s = .next t →
    t.protoVer = s.protoVer ∧ t.port = s.port ∧ t.strLen = s.strLen ∧ SameBytes .str s t ∧
    t.connectTimeout = s.connectTimeout ∧ t.readTimeout = s.readTimeout)

/-- 20_memory.md R50, R59: a read answers the word at `off & 0xFFFC` and changes nothing of the block. The answer stands on
the model's read log (log 7). -/
def Obligations.HostReadChangesNothing : Prop :=
  ∀ (s : State) (off : Half) (rest : List Input), s.inputs = .read32 off :: rest →
    step s = .next { s with inputs := rest, reads := s.reads ++ [s.readWord (off &&& 0xFFFC).toNat] }

/-- 10_state.md R21: what each register's offset reads as, in every phase (44_handshake_fsm.md R160), and what the step at a host
write to its word stores while the block is not BUSY, at any of the word's four byte offsets (20_memory.md R51). -/
def Obligations.RegisterMapReadsAndStores : Prop :=
  (∀ s : State,
    s.readWord 0x0000 = 0 ∧ s.readWord 0x0004 = s.operand ∧ s.readWord 0x0008 = s.status ∧
    s.readWord 0x000C = (0 : BitVec 24) ++ s.errSub ++ s.errCode ∧ s.readWord 0x0010 = s.result ∧
    s.readWord 0x0014 = s.vbytesLo ∧ s.readWord 0x0018 = s.vbytesHi.setWidth 32 ∧
    s.readWord 0x001C = s.vlen.setWidth 32 ∧ s.readWord 0x0020 = s.protoVer ∧ s.readWord 0x0024 = s.port.setWidth 32 ∧
    s.readWord 0x0028 = s.connectTimeout ∧ s.readWord 0x002C = s.readTimeout ∧
    s.readWord 0x0030 = s.strLen.setWidth 32 ∧ s.readWord 0x0034 = s.txBodyLen.setWidth 32 ∧
    s.readWord 0x0038 = s.txFrameLen.setWidth 32 ∧ s.readWord 0x003C = s.txSent.setWidth 32 ∧
    s.readWord 0x0040 = s.rxFrameLen.setWidth 32 ∧ s.readWord 0x0044 = s.rxRcvd.setWidth 32 ∧
    s.readWord 0x0048 = s.rxCursor.setWidth 32 ∧ s.readWord 0x004C = s.spanOff.setWidth 32 ∧
    s.readWord 0x0050 = s.spanLen.setWidth 32 ∧ s.readWord 0x0054 = s.timer) ∧
  ∀ (s : State) (off : Half) (v : Word) (rest : List Input), s.inputs = .write32 off v :: rest → s.busy = false →
    (off &&& 0xFFFC = 0x0004 → step s = .next { s with inputs := rest, operand := v }) ∧
    (off &&& 0xFFFC = 0x0014 → step s = .next { s with inputs := rest, vbytesLo := v }) ∧
    (off &&& 0xFFFC = 0x0018 → step s = .next { s with inputs := rest, vbytesHi := v.extractLsb' 0 8 }) ∧
    (off &&& 0xFFFC = 0x0020 → step s = .next { s with inputs := rest, protoVer := v }) ∧
    (off &&& 0xFFFC = 0x0024 → step s = .next { s with inputs := rest, port := v.extractLsb' 0 16 }) ∧
    (off &&& 0xFFFC = 0x0028 → step s = .next { s with inputs := rest, connectTimeout := v }) ∧
    (off &&& 0xFFFC = 0x002C → step s = .next { s with inputs := rest, readTimeout := v }) ∧
    (off &&& 0xFFFC = 0x0030 → step s = .next { s with inputs := rest, strLen := v.extractLsb' 0 9 }) ∧
    (off &&& 0xFFFC ∈ ([0x0008, 0x000C, 0x0010, 0x001C, 0x0034, 0x0038, 0x003C, 0x0040, 0x0044, 0x0048, 0x004C, 0x0050, 0x0054] :
        List Half) →
      step s = .next { s with inputs := rest })

/-- 10_state.md R24: the fields of STATUS, with the derived BUSY and ERRF and the codes of FSM and PHASE. -/
def Obligations.StatusRegisterFields : Prop :=
  ∀ s : State,
    (s.status.extractLsb' 0 3).toNat = (match s.fsm with
      | .idle => 0 | .connected => 1 | .handshakeSent => 2 | .statusRequested => 3 | .responseReceived => 4
      | .failed => 5) ∧
    (s.status.extractLsb' 4 3).toNat = (match s.phase with
      | .idle => 0 | .connecting => 1 | .sendHs => 2 | .sendSr => 3 | .recvLen => 4 | .recvBody => 5 | .done => 6) ∧
    (s.status.getLsbD 3 = true ↔ s.phase ≠ .idle ∧ s.phase ≠ .done) ∧
    (s.status.getLsbD 7 = true ↔ s.errCode ≠ 0) ∧
    s.status.getLsbD 8 = s.rej ∧ s.status.getLsbD 9 = s.frameValid ∧ s.status.extractLsb' 10 22 = 0

/-- 20_memory.md R55: the STR window reads and writes STR, four bytes a word, little-endian; a write may stand at any of the
word's four byte offsets (R51). -/
def Obligations.StrWindowReadsAndWrites : Prop :=
  ∀ (s : State) (k : Nat), k < 64 →
    (∀ j, j < 4 → (s.readWord (0x0100 + 4 * k)).extractLsb' (8 * j) 8 = s.byteAt .str (4 * k + j)) ∧
    ∀ (off : Half) (v : Word) (rest : List Input), (off &&& 0xFFFC).toNat = 0x0100 + 4 * k →
      s.inputs = .write32 off v :: rest → s.busy = false →
      ∃ t, step s = .next t ∧
        (∀ j, j < 4 → t.byteAt .str (4 * k + j) = v.extractLsb' (8 * j) 8) ∧
        SameBytesOutside .str (4 * k) 4 s t ∧ t = { s with inputs := rest, str := t.str }

/-- 20_memory.md R57: the RX window reads RX, also while BUSY, and writes it while not BUSY, at any of the word's four byte offsets
(R51); a host write leaves the reader alone. -/
def Obligations.RxWindowReadsAndWrites : Prop :=
  ∀ (s : State) (k : Nat), k < 8192 →
    (∀ j, j < 4 → (s.readWord (0x8000 + 4 * k)).extractLsb' (8 * j) 8 = s.byteAt .rx (4 * k + j)) ∧
    ∀ (off : Half) (v : Word) (rest : List Input), (off &&& 0xFFFC).toNat = 0x8000 + 4 * k →
      s.inputs = .write32 off v :: rest → s.busy = false →
      ∃ t, step s = .next t ∧
        (∀ j, j < 4 → t.byteAt .rx (4 * k + j) = v.extractLsb' (8 * j) 8) ∧
        SameBytesOutside .rx (4 * k) 4 s t ∧ t = { s with inputs := rest, rx := t.rx }

/-- 20_memory.md R56, 42_frame_builder.md R108: the TX frame window shows the assembled frame, 0x00 past its end and where no
frame is valid, and ignores writes, at any byte offset (R51). -/
def Obligations.TxWindowShowsTheFrame : Prop :=
  ∀ (s : State) (k : Nat), k < 256 →
    (∀ j, j < 4 →
      (s.readWord (0x0400 + 4 * k)).extractLsb' (8 * j) 8 =
        if s.frameValid = true ∧ 4 * k + j < s.txFrameLen.toNat then
          (if 4 * k + j < s.plen.toNat then s.pfx.getD (4 * k + j) 0 else s.byteAt .body (4 * k + j - s.plen.toNat))
        else 0x00) ∧
    ∀ (off : Half) (v : Word) (rest : List Input), (off &&& 0xFFFC).toNat = 0x0400 + 4 * k →
      s.inputs = .write32 off v :: rest → s.busy = false → step s = .next { s with inputs := rest }

/-- 20_memory.md R52, R53: an unmapped word reads 0 and a write to it is ignored, with no error. -/
def Obligations.UnmappedWordsReadZeroAndIgnoreWrites : Prop :=
  ∀ (s : State) (off : Half),
    ((0x0058 ≤ off.toNat ∧ off.toNat < 0x0100) ∨ (0x0200 ≤ off.toNat ∧ off.toNat < 0x0400) ∨
      (0x0800 ≤ off.toNat ∧ off.toNat < 0x8000)) →
    s.readWord (off &&& 0xFFFC).toNat = 0 ∧
    ∀ (v : Word) (rest : List Input), s.inputs = .write32 off v :: rest → s.busy = false →
      step s = .next { s with inputs := rest }

/-- 70_reset_and_hazards.md R190: what the Reset step does, to every register. The buffers read as a fresh draw, whatever it
is; that PFX keeps its bytes and that the trace is not erased are the model's choices (logs 6, 7, 10); draws, inputs and reads are the
model's own fields (logs 1, 3, 7). -/
def Obligations.ResetStepRestoresResetValues : Prop :=
  ∀ (s : State) (rest : List Input), s.inputs = .reset :: rest →
    ∃ t, step s = .next t ∧
      t.trace = (if s.busy = true then s.trace ++ [.close] else s.trace) ∧
      (t.operand = 0 ∧ t.fsm = .idle ∧ t.phase = .idle ∧ t.rej = false ∧ t.frameValid = false ∧ t.errCode = 0 ∧
        t.errSub = 0 ∧ t.result = 0 ∧ t.vbytesLo = 0 ∧ t.vbytesHi = 0 ∧ t.vlen = 0) ∧
      (t.protoVer = 47 ∧ t.port = 25565 ∧ t.connectTimeout = Config.connectTimeoutReset ∧
        t.readTimeout = Config.readTimeoutReset ∧ t.strLen = 0) ∧
      (t.txBodyLen = 0 ∧ t.txFrameLen = 0 ∧ t.txSent = 0 ∧ t.plen = 0 ∧ t.pfx = s.pfx) ∧
      (t.rxFrameLen = 0 ∧ t.rxRcvd = 0 ∧ t.rxCursor = 0 ∧ t.spanOff = 0 ∧ t.spanLen = 0 ∧ t.timer = 0 ∧ t.lacc = 0 ∧
        t.lcnt = 0) ∧
      (∀ b i, t.byteAt b i = Config.drawnByte b (s.draws + 1) i) ∧
      (t.draws = s.draws + 1 ∧ t.inputs = rest ∧ t.reads = s.reads)

/-! ## varint_encoder and varint_decoder -/

/-- 30_encoding.md R75: the bytes of an encoding hold the value's 7-bit groups, least significant first and all of them, with the
continuation bit on every byte but the last, in the smallest number of bytes that holds the value. -/
def Obligations.VencEmitsTheVarintFormat : Prop :=
  ∀ v : Word,
    (1 ≤ (venc v).length ∧ (venc v).length ≤ 5) ∧
    (∀ k, k < (venc v).length → k < 4 → ((venc v).getD k 0).extractLsb' 0 7 = v.extractLsb' (7 * k) 7) ∧
    ((venc v).length = 5 →
      ((venc v).getD 4 0).extractLsb' 0 4 = v.extractLsb' 28 4 ∧ ((venc v).getD 4 0).extractLsb' 4 3 = 0) ∧
    (∀ k, k < (venc v).length → (((venc v).getD k 0).getLsbD 7 = true ↔ k < (venc v).length - 1)) ∧
    v.toNat < 2 ^ (7 * (venc v).length) ∧
    (∀ n, 1 ≤ n → n < (venc v).length → 2 ^ (7 * n) ≤ v.toNat)

/-- 41_varint.md R94: the length table, and decoding an encoding gives the value and its length back. -/
def Obligations.VencLengthTableAndRoundTrip : Prop :=
  ∀ v : Word,
    (v.toNat ≤ 0x7F → (venc v).length = 1) ∧
    (0x80 ≤ v.toNat → v.toNat ≤ 0x3FFF → (venc v).length = 2) ∧
    (0x4000 ≤ v.toNat → v.toNat ≤ 0x1FFFFF → (venc v).length = 3) ∧
    (0x200000 ≤ v.toNat → v.toNat ≤ 0xFFFFFFF → (venc v).length = 4) ∧
    (0x10000000 ≤ v.toNat → (venc v).length = 5) ∧
    ∀ pull : Nat → Except ErrCause Byte,
      (∀ k (h : k < (venc v).length), pull k = .ok (venc v)[k]) → vdec pull = .ok (v, (venc v).length)

/-- 41_varint.md R91: what a decode answers for every source. -/
def Obligations.VdecReadsOneVarint : Prop :=
  ∀ (pull : Nat → Except ErrCause Byte) (f : Nat → Byte),
    (∀ n v, HoldsVarint f n v → (∀ j, j ≤ n → pull j = .ok (f j)) → vdec pull = .ok (v, n + 1)) ∧
    (∀ n e, n < 5 → (∀ j, j < n → pull j = .ok (f j) ∧ (f j).getLsbD 7 = true) → pull n = .error e →
      vdec pull = .error e) ∧
    ((∀ j, j < 5 → pull j = .ok (f j) ∧ (f j).getLsbD 7 = true) → vdec pull = .error .overlongVarint)

/-- 41_varint.md R92. -/
def Obligations.VencCommandFillsTheWindow : Prop :=
  encode .venc = 0x00000001 ∧
  ∀ s : State, ∃ t, exec .venc s = .next t ∧
    (∀ k, k < 5 → t.vb k = if k < (venc s.operand).length then (venc s.operand).getD k 0 else 0x00) ∧
    t.vlen.toNat = (venc s.operand).length ∧
    t = { s with vbytesLo := t.vbytesLo, vbytesHi := t.vbytesHi, vlen := t.vlen } ∧
    SameBytes .str s t ∧ SameBytes .body s t ∧ SameBytes .rx s t

/-- 41_varint.md R93. -/
def Obligations.VdecCommandReadsTheWindow : Prop :=
  encode .vdec = 0x00000002 ∧
  ∀ s : State,
    (∀ n v, HoldsVarint s.vb n v → exec .vdec s = .next { s with result := v, vlen := BitVec.ofNat 3 (n + 1) }) ∧
    ((∀ j, j < 5 → (s.vb j).getLsbD 7 = true) → exec .vdec s = .next { s with errCode := 3, errSub := 1 })

/-- 41_varint.md R93's corner case: "VDEC after VENC reproduces OPERAND", with VENC's VLEN. -/
def Obligations.VdecAfterVencReproducesOperand : Prop :=
  ∀ s t : State, exec .venc s = .next t → exec .vdec t = .next { t with result := s.operand }

/-! ## frame_builder -/

/-- 42_frame_builder.md R100: append adds all of the bytes or nothing. -/
def Obligations.AppendAllOrNothing : Prop :=
  ∀ (s : State) (bs : List Byte),
    (s.txBodyLen.toNat + bs.length ≤ 1022 → ∃ t, s.append bs = .ok t ∧ BodyAppended s t bs) ∧
    (1022 < s.txBodyLen.toNat + bs.length → s.append bs = .error .txBodyFull ∧
      s.settle (s.append bs) = { s with errCode := 4, errSub := 2 })

/-- 42_frame_builder.md R101: only the four registers named change, and BODY's bytes keep their values. -/
def Obligations.FbResetEmptiesTheBuilder : Prop :=
  encode .fbReset = 0x00000010 ∧
  ∀ s : State, ∃ t, exec .fbReset s = .next t ∧
    t = { s with txBodyLen := 0, plen := 0, txFrameLen := 0, frameValid := false } ∧
    SameBytes .body s t ∧ SameBytes .str s t ∧ SameBytes .rx s t ∧ exec .fbReset t = .next t

/-- 42_frame_builder.md R102. -/
def Obligations.FbWbyteAppendsOneByte : Prop :=
  encode .fbWbyte = 0x00000011 ∧
  ∀ s : State,
    (s.txBodyLen.toNat < 1022 → ∃ t, exec .fbWbyte s = .next t ∧ BodyAppended s t [s.operand.extractLsb' 0 8]) ∧
    (1022 ≤ s.txBodyLen.toNat → exec .fbWbyte s = .next { s with errCode := 4, errSub := 2 })

/-- 42_frame_builder.md R103. -/
def Obligations.FbWbytesAppendsTheStrRun : Prop :=
  encode .fbWbytes = 0x00000012 ∧
  ∀ s : State,
    (256 < s.strLen.toNat → exec .fbWbytes s = .next { s with errCode := 4, errSub := 1 }) ∧
    (s.strLen.toNat ≤ 256 → s.txBodyLen.toNat + s.strLen.toNat ≤ 1022 →
      ∃ t, exec .fbWbytes s = .next t ∧
        BodyAppended s t ((List.range s.strLen.toNat).map (fun i => s.byteAt .str i))) ∧
    (s.strLen.toNat ≤ 256 → 1022 < s.txBodyLen.toNat + s.strLen.toNat →
      exec .fbWbytes s = .next { s with errCode := 4, errSub := 2 })

/-- 42_frame_builder.md R104. -/
def Obligations.FbWvarintAppendsTheEncoding : Prop :=
  encode .fbWvarint = 0x00000013 ∧
  ∀ s : State,
    (s.txBodyLen.toNat + (venc s.operand).length ≤ 1022 →
      ∃ t, exec .fbWvarint s = .next t ∧ BodyAppended s t (venc s.operand)) ∧
    (1022 < s.txBodyLen.toNat + (venc s.operand).length →
      exec .fbWvarint s = .next { s with errCode := 4, errSub := 2 })

/-- 42_frame_builder.md R105: most significant byte first. -/
def Obligations.FbWu16beAppendsHighByteFirst : Prop :=
  encode .fbWu16be = 0x00000014 ∧
  ∀ s : State,
    (s.txBodyLen.toNat + 2 ≤ 1022 →
      ∃ t, exec .fbWu16be s = .next t ∧
        BodyAppended s t [s.operand.extractLsb' 8 8, s.operand.extractLsb' 0 8]) ∧
    (1022 < s.txBodyLen.toNat + 2 → exec .fbWu16be s = .next { s with errCode := 4, errSub := 2 })

/-- 42_frame_builder.md R106: the length in bytes as a varint, then the bytes, in one append. -/
def Obligations.FbWstrAppendsTheLengthPrefixedString : Prop :=
  encode .fbWstr = 0x00000015 ∧
  ∀ s : State,
    (256 < s.strLen.toNat → exec .fbWstr s = .next { s with errCode := 4, errSub := 1 }) ∧
    (s.strLen.toNat ≤ 256 →
      s.txBodyLen.toNat + (venc (s.strLen.setWidth 32)).length + s.strLen.toNat ≤ 1022 →
      ∃ t, exec .fbWstr s = .next t ∧
        BodyAppended s t
          (venc (s.strLen.setWidth 32) ++ (List.range s.strLen.toNat).map (fun i => s.byteAt .str i))) ∧
    (s.strLen.toNat ≤ 256 →
      1022 < s.txBodyLen.toNat + (venc (s.strLen.setWidth 32)).length + s.strLen.toNat →
      exec .fbWstr s = .next { s with errCode := 4, errSub := 2 })

/-- 42_frame_builder.md R107: the frame is the body's length as a varint, then the body, which is kept. It raises nothing; the
bounds on the prefix and the frame are those of a body that append can build. -/
def Obligations.FbFinishAssemblesTheFrame : Prop :=
  encode .fbFinish = 0x00000016 ∧
  ∀ s : State, ∃ t, exec .fbFinish s = .next t ∧
    t = { s with pfx := t.pfx, plen := t.plen, txFrameLen := t.txFrameLen, frameValid := true } ∧
    t.plen.toNat = (venc (s.txBodyLen.setWidth 32)).length ∧
    t.pfx.take t.plen.toNat = venc (s.txBodyLen.setWidth 32) ∧
    t.txFrameLen.toNat = t.plen.toNat + s.txBodyLen.toNat ∧
    t.frameBytes = venc (s.txBodyLen.setWidth 32) ++ s.bodyBytes ∧
    t.bodyBytes = s.bodyBytes ∧ SameBytes .body s t ∧ SameBytes .str s t ∧ SameBytes .rx s t ∧
    exec .fbFinish t = .next t ∧
    (s.txBodyLen.toNat ≤ 1022 → t.plen.toNat ≤ 2 ∧ t.txFrameLen.toNat ≤ 1024)

/-- 42_frame_builder.md R109: FB_RESET, a varint, any appends of payload and FB_FINISH give a frame whose first varint decodes
to the length of the varint plus that of the payload. -/
def Obligations.FrameLengthLaw : Prop :=
  ∀ (s : State) (p : Word) (chunks : List (List Byte)),
    (venc p).length + chunks.flatten.length ≤ 1022 →
    ∃ (t : State) (k : Nat),
      t = (chunks.foldl State.appended (s.builderReset.appended (venc p))).finish ∧ t.frameValid = true ∧
      vdec (fun i => if i < t.txFrameLen.toNat then .ok (t.frameByte i) else .error .readPastEnd) =
        .ok (BitVec.ofNat 32 ((venc p).length + chunks.flatten.length), k) ∧
      t.frameBytes.drop k = venc p ++ chunks.flatten

/-! ## frame_parser -/

/-- 43_frame_parser.md R121. -/
def Obligations.FpLoadBuildsTheReader : Prop :=
  encode .fpLoad = 0x00000020 ∧
  ∀ s : State,
    (s.operand.toNat ≤ 32768 →
      ∃ t, exec .fpLoad s = .next t ∧ t.rxFrameLen.toNat = s.operand.toNat ∧ t.rxCursor = 0 ∧
        t = { s with rxFrameLen := t.rxFrameLen, rxCursor := 0 } ∧
        SameBytes .rx s t ∧ SameBytes .str s t ∧ SameBytes .body s t) ∧
    (32768 < s.operand.toNat → exec .fpLoad s = .next { s with errCode := 4, errSub := 3 })

/-- 43_frame_parser.md R121, 70_reset_and_hazards.md R190: over zero bytes, as after reset or FP_LOAD of 0, every read of at least one
byte fails READ_PAST_END. Those rules say it of every read; that a read of no byte succeeds there, as R123 and R125 have it, is the
model's reading (log 20). -/
def Obligations.EmptyReaderFailsEveryReadOfAByte : Prop :=
  ∀ s : State, s.rxFrameLen = 0 → s.rxCursor = 0 →
    exec .fpRbyte s = .next { s with errCode := 3, errSub := 2 } ∧
    exec .fpRvarint s = .next { s with errCode := 3, errSub := 2 } ∧
    (s.operand ≠ 0 →
      exec .fpRbytes s = .next { s with errCode := 3, errSub := 2 } ∧
      exec .fpRstr s = .next { s with errCode := 3, errSub := 2 }) ∧
    (s.operand = 0 →
      exec .fpRbytes s = .next { s with spanOff := 0, spanLen := 0 } ∧
      exec .fpRstr s = .next { s with spanOff := 0, spanLen := 0 })

/-- 43_frame_parser.md R122: one byte, zero-extended. -/
def Obligations.FpRbyteReadsOneByte : Prop :=
  encode .fpRbyte = 0x00000021 ∧
  ∀ s : State,
    (s.rxCursor.toNat < s.rxFrameLen.toNat →
      ∃ t, exec .fpRbyte s = .next t ∧ t.result.toNat = (s.byteAt .rx s.rxCursor.toNat).toNat ∧
        t.rxCursor.toNat = s.rxCursor.toNat + 1 ∧ t = { s with result := t.result, rxCursor := t.rxCursor } ∧
        SameBytes .rx s t ∧ SameBytes .str s t ∧ SameBytes .body s t) ∧
    (s.rxFrameLen.toNat ≤ s.rxCursor.toNat → exec .fpRbyte s = .next { s with errCode := 3, errSub := 2 })

/-- 43_frame_parser.md R123: a span of the bytes that remain, the cursor past it; nothing is copied. That n = 0 succeeds over the
empty reader too is the model's reading of R123 against R121 and R190 (log 20). -/
def Obligations.FpRbytesReturnsTheSpan : Prop :=
  encode .fpRbytes = 0x00000022 ∧
  ∀ s : State,
    (s.rxCursor.toNat + s.operand.toNat ≤ s.rxFrameLen.toNat →
      ∃ t, exec .fpRbytes s = .next t ∧ t.spanOff = s.rxCursor ∧ t.spanLen.toNat = s.operand.toNat ∧
        t.rxCursor.toNat = s.rxCursor.toNat + s.operand.toNat ∧
        t = { s with spanOff := t.spanOff, spanLen := t.spanLen, rxCursor := t.rxCursor } ∧
        SameBytes .rx s t ∧ SameBytes .str s t ∧ SameBytes .body s t) ∧
    (s.rxFrameLen.toNat < s.rxCursor.toNat + s.operand.toNat → s.rxCursor.toNat ≤ s.rxFrameLen.toNat →
      exec .fpRbytes s = .next { s with errCode := 3, errSub := 2 })

/-- 43_frame_parser.md R125: FP_RSTR is FP_RBYTES with n = byteLength; the bytes are neither checked nor changed. That byteLength = 0
succeeds over the empty reader too is the model's reading of R125 against R121 and R190 (log 20). -/
def Obligations.FpRstrReturnsTheSpan : Prop :=
  encode .fpRstr = 0x00000024 ∧
  ∀ s : State,
    (s.rxCursor.toNat + s.operand.toNat ≤ s.rxFrameLen.toNat →
      ∃ t, exec .fpRstr s = .next t ∧ t.spanOff = s.rxCursor ∧ t.spanLen.toNat = s.operand.toNat ∧
        t.rxCursor.toNat = s.rxCursor.toNat + s.operand.toNat ∧
        t = { s with spanOff := t.spanOff, spanLen := t.spanLen, rxCursor := t.rxCursor } ∧
        SameBytes .rx s t ∧ SameBytes .str s t ∧ SameBytes .body s t) ∧
    (s.rxFrameLen.toNat < s.rxCursor.toNat + s.operand.toNat → s.rxCursor.toNat ≤ s.rxFrameLen.toNat →
      exec .fpRstr s = .next { s with errCode := 3, errSub := 2 })

/-- 43_frame_parser.md R124, R120: a varint at the cursor; the body's end before a terminating byte is READ_PAST_END, five
continuing bytes inside the body are OVERLONG_VARINT. -/
def Obligations.FpRvarintReadsAVarint : Prop :=
  encode .fpRvarint = 0x00000023 ∧
  ∀ s : State,
    (∀ n v, HoldsVarint (fun j => s.byteAt .rx (s.rxCursor.toNat + j)) n v →
      s.rxCursor.toNat + n < s.rxFrameLen.toNat →
      ∃ t, exec .fpRvarint s = .next t ∧ t.result = v ∧ t.rxCursor.toNat = s.rxCursor.toNat + n + 1 ∧
        t = { s with result := t.result, rxCursor := t.rxCursor } ∧
        SameBytes .rx s t ∧ SameBytes .str s t ∧ SameBytes .body s t) ∧
    (∀ n, n < 5 → (∀ j, j < n → (s.byteAt .rx (s.rxCursor.toNat + j)).getLsbD 7 = true) →
      s.rxFrameLen.toNat ≤ s.rxCursor.toNat + n → exec .fpRvarint s = .next { s with errCode := 3, errSub := 2 }) ∧
    ((∀ j, j < 5 → (s.byteAt .rx (s.rxCursor.toNat + j)).getLsbD 7 = true) →
      s.rxCursor.toNat + 5 ≤ s.rxFrameLen.toNat → exec .fpRvarint s = .next { s with errCode := 3, errSub := 1 })

/-! ## Short commands as a whole -/

/-- 60_exceptions.md R171: a short command that records an error changes nothing but ERR. -/
def Obligations.ShortCommandErrorChangesOnlyErr : Prop :=
  ∀ (i : Instr) (s t : State), i ≠ .hsStart → s.errCode = 0 → exec i s = .next t → t.errCode ≠ 0 →
    t = { s with errCode := t.errCode, errSub := t.errSub }

/-- 00_scope.md R11, "A register or buffer byte a rule does not name keeps its value", for the bytes of the three buffers: a
command that stores nothing leaves every byte, and a command that appends leaves every byte but those of BODY from TX_BODY_LEN
up to the new TX_BODY_LEN (42_frame_builder.md R100). -/
def Obligations.CommandsKeepBufferBytes : Prop :=
  (∀ (i : Instr) (s t : State),
    i ∈ [Instr.venc, .vdec, .fbReset, .fbFinish, .fpLoad, .fpRbyte, .fpRbytes, .fpRvarint, .fpRstr, .hsStart] →
    exec i s = .next t → SameBytes .str s t ∧ SameBytes .body s t ∧ SameBytes .rx s t) ∧
  (∀ (i : Instr) (s t : State), i ∈ [Instr.fbWbyte, .fbWbytes, .fbWvarint, .fbWu16be, .fbWstr] →
    exec i s = .next t →
    SameBytes .str s t ∧ SameBytes .rx s t ∧ s.txBodyLen.toNat ≤ t.txBodyLen.toNat ∧
    SameBytesOutside .body s.txBodyLen.toNat (t.txBodyLen.toNat - s.txBodyLen.toNat) s t)

/-- 30_encoding.md R74: every command but HS_START completes in its own step and touches no run; HS_START completes in its own
step if its start check fails and otherwise leaves the block BUSY in CONNECTING. -/
def Obligations.CommandCompletion : Prop :=
  (∀ (i : Instr) (s : State), i ≠ .hsStart → ∃ t, exec i s = .next t ∧ t.busy = s.busy ∧ t.fsm = s.fsm ∧
    t.phase = s.phase ∧ t.txSent = s.txSent ∧ t.timer = s.timer ∧ t.trace = s.trace ∧ t.rxRcvd = s.rxRcvd ∧
    t.lacc = s.lacc ∧ t.lcnt = s.lcnt ∧ t.operand = s.operand ∧ t.protoVer = s.protoVer ∧ t.port = s.port ∧
    t.connectTimeout = s.connectTimeout ∧ t.readTimeout = s.readTimeout ∧ t.strLen = s.strLen ∧ t.rej = s.rej ∧
    SameBytes .str s t ∧ SameBytes .rx s t) ∧
  (∀ s : State, ∃ t, exec .hsStart s = .next t ∧
    (256 < s.strLen.toNat → t.phase = .done ∧ t.busy = false) ∧
    (s.strLen.toNat ≤ 256 → t.phase = .connecting ∧ t.busy = true))

/-! ## handshake_fsm -/

/-- 44_handshake_fsm.md R142. -/
def Obligations.HsStartBeginsOrFailsTheRun : Prop :=
  encode .hsStart = 0x00000030 ∧
  ∀ s : State,
    (256 < s.strLen.toNat →
      exec .hsStart s = .next { s with errCode := 4, errSub := 1, fsm := .failed, phase := .done,
                                       trace := s.trace ++ [.close] }) ∧
    (s.strLen.toNat ≤ 256 →
      exec .hsStart s = .next { s with fsm := .idle, phase := .connecting, timer := 0, txSent := 0,
                                       trace := s.trace ++
                                         [.connReq ((List.range s.strLen.toNat).map (fun i => s.byteAt .str i)) s.port] })

/-- 44_handshake_fsm.md R143 and 42_frame_builder.md R110: ConnOk builds the Handshake frame of the configured version, address
and port and begins to send it. -/
def Obligations.ConnOkBuildsTheHandshakeFrame : Prop :=
  ∀ (s : State) (rest : List Input), s.inputs = .connOk :: rest → s.phase = .connecting → s.strLen.toNat ≤ 256 →
    ∃ (t : State) (b : List Byte), step s = .next t ∧
      b = [0x00] ++ venc s.protoVer ++ venc (s.strLen.setWidth 32) ++
        (List.range s.strLen.toNat).map (fun i => s.byteAt .str i) ++
        [s.port.extractLsb' 8 8, s.port.extractLsb' 0 8] ++ [0x01] ∧
      b.length ≤ 267 ∧ t.bodyBytes = b ∧ t.txBodyLen.toNat = b.length ∧
      t.frameBytes = venc (BitVec.ofNat 32 b.length) ++ b ∧
      t.pfx.take t.plen.toNat = venc (BitVec.ofNat 32 b.length) ∧
      t.plen.toNat = (venc (BitVec.ofNat 32 b.length)).length ∧
      SameBytesOutside .body 0 b.length s t ∧ SameBytes .str s t ∧ SameBytes .rx s t ∧
      t = { s with inputs := rest, fsm := .connected, phase := .sendHs, txSent := 0, body := t.body,
                   txBodyLen := t.txBodyLen, pfx := t.pfx, plen := t.plen, txFrameLen := t.txFrameLen,
                   frameValid := true }

/-- 44_handshake_fsm.md R144, R149, R150 with 43_frame_parser.md R128: the events that end a run at once, each with its error
and the failure entry of R156. -/
def Obligations.FailureEventsEndTheRun : Prop :=
  ∀ (s : State) (rest : List Input),
    (s.inputs = .connFail :: rest → s.phase = .connecting →
      step s = .next { s with inputs := rest, errCode := 1, errSub := 1, fsm := .failed, phase := .done,
                              trace := s.trace ++ [.close] }) ∧
    (s.inputs = .ioErr :: rest → s.phase = .sendHs ∨ s.phase = .sendSr ∨ s.phase = .recvLen ∨ s.phase = .recvBody →
      step s = .next { s with inputs := rest, errCode := 1, errSub := 3, fsm := .failed, phase := .done,
                              trace := s.trace ++ [.close] }) ∧
    (s.inputs = .rxEos :: rest → s.phase = .recvLen ∨ s.phase = .recvBody →
      step s = .next { s with inputs := rest, errCode := 3, errSub := 4, fsm := .failed, phase := .done,
                              trace := s.trace ++ [.close] })

/-- 44_handshake_fsm.md R145 to R147: a TxAccept sends `frame_byte(TX_SENT)`; the last one of the handshake builds the Status
Request frame `01 00`, the last one of that opens the receive. -/
def Obligations.TxAcceptSendsTheNextByte : Prop :=
  ∀ (s : State) (rest : List Input), s.inputs = .txAccept :: rest → s.phase = .sendHs ∨ s.phase = .sendSr →
    (s.txSent.toNat + 1 < s.txFrameLen.toNat →
      ∃ t, step s = .next t ∧ t.txSent.toNat = s.txSent.toNat + 1 ∧
        t = { s with inputs := rest, trace := s.trace ++ [.txByte (s.frameByte s.txSent.toNat)], txSent := t.txSent }) ∧
    (s.txSent.toNat + 1 = s.txFrameLen.toNat → s.phase = .sendHs →
      ∃ t, step s = .next t ∧ t.frameBytes = [0x01, 0x00] ∧ t.bodyBytes = [0x00] ∧ t.pfx.take 1 = [0x01] ∧
        SameBytesOutside .body 0 1 s t ∧ SameBytes .str s t ∧ SameBytes .rx s t ∧
        t = { s with inputs := rest, trace := s.trace ++ [.txByte (s.frameByte s.txSent.toNat)], fsm := .handshakeSent,
                     phase := .sendSr, txSent := 0, body := t.body, txBodyLen := 1, pfx := t.pfx, plen := 1,
                     txFrameLen := 2, frameValid := true }) ∧
    (s.txSent.toNat + 1 = s.txFrameLen.toNat → s.phase = .sendSr →
      ∃ t, step s = .next t ∧ t.txSent.toNat = s.txSent.toNat + 1 ∧
        t = { s with inputs := rest, trace := s.trace ++ [.txByte (s.frameByte s.txSent.toNat)], txSent := t.txSent,
                     fsm := .statusRequested, phase := .recvLen, timer := 0, lacc := 0, lcnt := 0, rxFrameLen := 0,
                     rxRcvd := 0, rxCursor := 0 })

/-- 44_handshake_fsm.md R145: from the first handshake byte on, as many TxAccepts as the frame has bytes send exactly the frame,
first byte first, and leave the two bytes of the Status Request to send. -/
def Obligations.HandshakeFrameGoesOutInOrder : Prop :=
  ∀ (s : State) (rest : List Input), s.phase = .sendHs → s.txSent = 0 → 0 < s.txFrameLen.toNat →
    s.inputs = List.replicate s.txFrameLen.toNat .txAccept ++ rest →
    ∃ t, Host.Core.run Sys2Proof.core s.txFrameLen.toNat s = .next t ∧
      t.trace = s.trace ++ s.frameBytes.map (fun b => .txByte b) ∧ t.phase = .sendSr ∧ t.fsm = .handshakeSent ∧
      t.frameBytes = [0x01, 0x00] ∧ t.txSent = 0 ∧ t.inputs = rest

/-- 43_frame_parser.md R126: one byte of the length prefix, in every case. `L` is LACC after the byte. That a step which fails
keeps the writes it made before `fail` is the model's reading of R126, R130 and R156 against R179 (log 8). -/
def Obligations.RxByteDecodesTheLengthPrefix : Prop :=
  ∀ (s : State) (b : Byte) (rest : List Input) (L : Word),
    s.inputs = .rxByte b :: rest → s.phase = .recvLen → s.lcnt.toNat ≤ 4 →
    L = (if s.lcnt.toNat < 4 then s.lacc ||| ((b.extractLsb' 0 7).setWidth 32 <<< (7 * s.lcnt.toNat))
      else s.lacc ||| ((b.extractLsb' 0 4).setWidth 32 <<< 28)) →
    (b.getLsbD 7 = true → s.lcnt.toNat < 4 →
      ∃ t, step s = .next t ∧ t.lcnt.toNat = s.lcnt.toNat + 1 ∧ t = { s with inputs := rest, lacc := L, lcnt := t.lcnt }) ∧
    (b.getLsbD 7 = true → s.lcnt.toNat = 4 →
      step s = .next { s with inputs := rest, lacc := L, lcnt := 5, errCode := 3, errSub := 1, fsm := .failed,
                              phase := .done, trace := s.trace ++ [.close] }) ∧
    (b.getLsbD 7 = false → 32768 < L.toNat →
      ∃ t, step s = .next t ∧ t.lcnt.toNat = s.lcnt.toNat + 1 ∧
        t = { s with inputs := rest, lacc := L, lcnt := t.lcnt, errCode := 4, errSub := 3, fsm := .failed,
                     phase := .done, trace := s.trace ++ [.close] }) ∧
    (b.getLsbD 7 = false → 0 < L.toNat → L.toNat ≤ 32768 →
      ∃ t, step s = .next t ∧ t.lcnt.toNat = s.lcnt.toNat + 1 ∧ t.rxFrameLen.toNat = L.toNat ∧
        t = { s with inputs := rest, lacc := L, lcnt := t.lcnt, rxFrameLen := t.rxFrameLen, rxRcvd := 0,
                     phase := .recvBody }) ∧
    (b.getLsbD 7 = false → L = 0 →
      ∃ t u : State, t.lcnt.toNat = s.lcnt.toNat + 1 ∧
        t = { s with inputs := rest, lacc := 0, lcnt := t.lcnt, rxFrameLen := 0, rxRcvd := 0 } ∧
        u = t.complete ∧ step s = .next u ∧
        u = { t with rxCursor := 0, errCode := 3, errSub := 2, fsm := .failed, phase := .done,
                     trace := s.trace ++ [.close] })

/-- 43_frame_parser.md R127: a body byte is stored at RX[RX_RCVD]; the one that completes the frame is parsed in the same step. That
RX and RX_RCVD keep this step's writes where the parse fails is the model's reading of R127, R130 and R156 against R179 (log 8). -/
def Obligations.RxByteStoresTheBody : Prop :=
  ∀ (s : State) (b : Byte) (rest : List Input),
    s.inputs = .rxByte b :: rest → s.phase = .recvBody → s.rxRcvd.toNat < s.rxFrameLen.toNat →
    s.rxFrameLen.toNat ≤ 32768 →
    ∃ u : State, u.byteAt .rx s.rxRcvd.toNat = b ∧ u.rxRcvd.toNat = s.rxRcvd.toNat + 1 ∧
      SameBytesOutside .rx s.rxRcvd.toNat 1 s u ∧ SameBytes .str s u ∧ SameBytes .body s u ∧
      u = { s with inputs := rest, rx := u.rx, rxRcvd := u.rxRcvd } ∧
      (s.rxRcvd.toNat + 1 < s.rxFrameLen.toNat → step s = .next u) ∧
      (s.rxRcvd.toNat + 1 = s.rxFrameLen.toNat → step s = .next u.complete)

/-- 43_frame_parser.md R130: the parse of a received body, check by check, each error entered with the writes made so far (the
model's reading of R130 and R156 against R179: log 8). First the packetID read's own errors; then, for a packetID of `n + 1`
bytes at RX[0], its value, the jsonLength read behind it (a varint of `m + 1` bytes) and the JSON span. -/
def Obligations.ResponseParse : Prop :=
  (∀ (s : State) (k : Nat), k < 5 → (∀ j, j < k → (s.byteAt .rx j).getLsbD 7 = true) → s.rxFrameLen.toNat ≤ k →
    s.complete = { s with rxCursor := 0, errCode := 3, errSub := 2, fsm := .failed, phase := .done,
                          trace := s.trace ++ [.close] }) ∧
  (∀ s : State, (∀ j, j < 5 → (s.byteAt .rx j).getLsbD 7 = true) → 5 ≤ s.rxFrameLen.toNat →
    s.complete = { s with rxCursor := 0, errCode := 3, errSub := 1, fsm := .failed, phase := .done,
                          trace := s.trace ++ [.close] }) ∧
  (∀ (s : State) (n : Nat) (pid : Word), HoldsVarint (fun j => s.byteAt .rx j) n pid → n < s.rxFrameLen.toNat →
    pid ≠ 0 →
    s.complete = { s with result := pid, rxCursor := BitVec.ofNat 16 (n + 1), errCode := 3, errSub := 3,
                          fsm := .failed, phase := .done, trace := s.trace ++ [.close] }) ∧
  (∀ (s : State) (n : Nat), HoldsVarint (fun j => s.byteAt .rx j) n 0 → n < s.rxFrameLen.toNat →
    (∀ k, k < 5 → (∀ j, j < k → (s.byteAt .rx (n + 1 + j)).getLsbD 7 = true) → s.rxFrameLen.toNat ≤ n + 1 + k →
      s.complete = { s with result := 0, rxCursor := BitVec.ofNat 16 (n + 1), errCode := 3, errSub := 2,
                            fsm := .failed, phase := .done, trace := s.trace ++ [.close] }) ∧
    ((∀ j, j < 5 → (s.byteAt .rx (n + 1 + j)).getLsbD 7 = true) → n + 6 ≤ s.rxFrameLen.toNat →
      s.complete = { s with result := 0, rxCursor := BitVec.ofNat 16 (n + 1), errCode := 3, errSub := 1,
                            fsm := .failed, phase := .done, trace := s.trace ++ [.close] }) ∧
    (∀ (m : Nat) (len : Word), HoldsVarint (fun j => s.byteAt .rx (n + 1 + j)) m len → n + 1 + m < s.rxFrameLen.toNat →
      (s.rxFrameLen.toNat < n + m + 2 + len.toNat →
        s.complete = { s with result := len, rxCursor := BitVec.ofNat 16 (n + m + 2), errCode := 3, errSub := 2,
                              fsm := .failed, phase := .done, trace := s.trace ++ [.close] }) ∧
      (n + m + 2 + len.toNat ≤ s.rxFrameLen.toNat →
        s.complete = { s with result := len, rxCursor := BitVec.ofNat 16 (n + m + 2 + len.toNat),
                              spanOff := BitVec.ofNat 16 (n + m + 2), spanLen := BitVec.ofNat 16 len.toNat,
                              fsm := .responseReceived, phase := .done, trace := s.trace ++ [.close] })))

/-- 30_encoding.md R76, R79 with 43_frame_parser.md R126 to R131: a Status Response frame whose body fits, with any bytes after
the JSON, delivered byte by byte from the opening of the receive, ends the run in ResponseReceived with SPAN locating the JSON
bytes in RX unmodified, RESULT = jsonLength and one Close. -/
def Obligations.StatusResponseIsReceivedWhole : Prop :=
  ∀ (s : State) (json tail rest : List Byte) (more : List Input),
    s.phase = .recvLen → s.lacc = 0 → s.lcnt = 0 →
    rest = [0x00] ++ venc (BitVec.ofNat 32 json.length) ++ json ++ tail → rest.length ≤ 32768 →
    s.inputs = (venc (BitVec.ofNat 32 rest.length) ++ rest).map (fun b => .rxByte b) ++ more →
    ∃ t, Host.Core.run Sys2Proof.core ((venc (BitVec.ofNat 32 rest.length)).length + rest.length) s = .next t ∧
      t.fsm = .responseReceived ∧ t.phase = .done ∧ t.result.toNat = json.length ∧
      t.spanLen.toNat = json.length ∧ t.spanOff.toNat = 1 + (venc (BitVec.ofNat 32 json.length)).length ∧
      t.rxCursor.toNat = t.spanOff.toNat + t.spanLen.toNat ∧
      t.bytesFrom .rx t.spanOff.toNat t.spanLen.toNat = json ∧
      t.rxFrameLen.toNat = rest.length ∧ t.rxRcvd.toNat = rest.length ∧
      t.errCode = s.errCode ∧ t.errSub = s.errSub ∧ t.trace = s.trace ++ [.close] ∧ t.inputs = more

/-- 44_handshake_fsm.md R151: a tick in every phase. That the tick which fails keeps its count in TIMER is the model's reading
(log 8). -/
def Obligations.TickCountsTheWait : Prop :=
  ∀ (s : State) (rest : List Input) (T : Word), s.inputs = .tick :: rest →
    T = BitVec.ofNat 32 (min (s.timer.toNat + 1) 0xFFFFFFFF) →
    (s.phase = .connecting →
      (T.toNat < s.connectTimeout.toNat → step s = .next { s with inputs := rest, timer := T }) ∧
      (s.connectTimeout.toNat ≤ T.toNat →
        step s = .next { s with inputs := rest, timer := T, errCode := 1, errSub := 2, fsm := .failed, phase := .done,
                                trace := s.trace ++ [.close] })) ∧
    (s.phase = .recvLen ∨ s.phase = .recvBody →
      (T.toNat < s.readTimeout.toNat → step s = .next { s with inputs := rest, timer := T }) ∧
      (s.readTimeout.toNat ≤ T.toNat →
        step s = .next { s with inputs := rest, timer := T, errCode := 2, errSub := 0, fsm := .failed, phase := .done,
                                trace := s.trace ++ [.close] })) ∧
    (s.phase = .idle ∨ s.phase = .sendHs ∨ s.phase = .sendSr ∨ s.phase = .done →
      step s = .next { s with inputs := rest })

/-- 44_handshake_fsm.md R152, R159: a wait with TIMER at `x` under timeout `T` ends at tick number `max(T - x, 1)` and no tick
earlier, in Failed with Close. -/
def Obligations.WaitsEndWithinBoundedTicks : Prop :=
  ∀ (s : State) (rest : List Input) (n : Nat),
    (s.phase = .connecting → n = max (s.connectTimeout.toNat - s.timer.toNat) 1 →
      s.inputs = List.replicate n .tick ++ rest →
      (∃ t, Host.Core.run Sys2Proof.core n s = .next t ∧ t.phase = .done ∧ t.fsm = .failed ∧ t.errCode = 1 ∧
        t.errSub = 2 ∧ t.trace = s.trace ++ [.close] ∧ t.inputs = rest) ∧
      (∀ k, k < n → ∃ t, Host.Core.run Sys2Proof.core k s = .next t ∧ t.phase = .connecting ∧
        t.timer.toNat = s.timer.toNat + k)) ∧
    (s.phase = .recvLen ∨ s.phase = .recvBody → n = max (s.readTimeout.toNat - s.timer.toNat) 1 →
      s.inputs = List.replicate n .tick ++ rest →
      (∃ t, Host.Core.run Sys2Proof.core n s = .next t ∧ t.phase = .done ∧ t.fsm = .failed ∧ t.errCode = 2 ∧
        t.errSub = 0 ∧ t.trace = s.trace ++ [.close] ∧ t.inputs = rest) ∧
      (∀ k, k < n → ∃ t, Host.Core.run Sys2Proof.core k s = .next t ∧ t.phase = s.phase ∧
        t.timer.toNat = s.timer.toNat + k))

/-- 44_handshake_fsm.md R157: an event that its table does not enable has no step (the model refuses it by name, log 2); every
other step of the environment has a next state. -/
def Obligations.EventsStepExactlyWhenEnabled : Prop :=
  ∀ (s : State) (i : Input) (rest : List Input), s.inputs = i :: rest →
    let isEnabled : Prop := match i with
      | .connOk | .connFail => s.phase = .connecting
      | .txAccept => s.phase = .sendHs ∨ s.phase = .sendSr
      | .rxByte _ | .rxEos => s.phase = .recvLen ∨ s.phase = .recvBody
      | .ioErr => s.phase = .sendHs ∨ s.phase = .sendSr ∨ s.phase = .recvLen ∨ s.phase = .recvBody
      | .tick | .read32 _ | .write32 _ _ | .reset => True
    (isEnabled → ∃ t, step s = .next t) ∧ (¬ isEnabled → step s = .refused (.eventNotEnabled i))

/-! ## The whole machine -/

/-- 44_handshake_fsm.md R155: every step that ends a run, or fails an HS_START at once, emits exactly one Close. -/
def Obligations.CloseOnEveryExit : Prop :=
  (∀ s t : State, step s = .next t → s.busy = true → t.busy = false → t.trace = s.trace ++ [.close]) ∧
  (∀ s t : State, step s = .next t → s.phase ≠ .done → t.phase = .done → t.trace = s.trace ++ [.close]) ∧
  (∀ (s t : State) (off : Half) (rest : List Input), s.inputs = .write32 off 0x00000030 :: rest →
    off &&& 0xFFFC = 0 → s.busy = false → step s = .next t → t.phase = .done → t.trace = s.trace ++ [.close])

/-- 44_handshake_fsm.md R141: "Only the rules named here change FSM or PHASE; reset does too". Every change is a row of the table:
its step, from its FSM and PHASE, under its condition, to its FSM and PHASE. The conditions are on the state before the step, so
none rests on what a failing step leaves behind. -/
def Obligations.FsmAndPhaseFollowTheTable : Prop :=
  ∀ (s t : State), Inv s → step s = .next t → (t.fsm ≠ s.fsm ∨ t.phase ≠ s.phase) →
    ∃ (i : Input) (rest : List Input), s.inputs = i :: rest ∧
      (TransitionRow i s t ∨ (i = .reset ∧ t.fsm = .idle ∧ t.phase = .idle))

/-- The output trace only grows: what has been emitted stays emitted, at a Reset too (70_reset_and_hazards.md R190: "The output
trace is not state of the block, and reset does not erase it"). -/
def Obligations.OutputTraceOnlyGrows : Prop :=
  ∀ s t : State, step s = .next t → s.trace <+: t.trace

/-- 60_exceptions.md R172: ERR is written by an accepted CMD write, by a failing run and by Reset, and by nothing else. -/
def Obligations.ErrIsWrittenByNothingElse : Prop :=
  ∀ s t : State, step s = .next t → (t.errCode ≠ s.errCode ∨ t.errSub ≠ s.errSub) →
    (∃ off v rest, s.inputs = .write32 off v :: rest ∧ off &&& 0xFFFC = 0 ∧ s.busy = false) ∨
    (s.busy = true ∧ t.fsm = .failed ∧ t.phase = .done) ∨
    (∃ rest, s.inputs = .reset :: rest)

/-- 60_exceptions.md R170: ERR never holds a pair the table does not list. -/
def Obligations.ErrHoldsListedPairs : Prop :=
  ∀ s t : State, errListed s.errCode s.errSub = true → step s = .next t → errListed t.errCode t.errSub = true

/-- Every step keeps the canonical form of the three buffers (the model's representation, log 4). -/
def Obligations.BuffersStayCanonical : Prop :=
  ∀ s t : State, BuffersWf s → step s = .next t → BuffersWf t

/-- 10_state.md R41: the invariants hold after every step from a state where they hold. -/
def Obligations.SoundStatesStaySound : Prop :=
  ∀ s t : State, Inv s → step s = .next t → Inv t

/-- The invariants, the listed error pairs and the canonical buffers hold at reset (R41, R190). -/
def Obligations.ResetStateIsSound : Prop :=
  Inv State.reset ∧ BuffersWf State.reset ∧ errListed State.reset.errCode State.reset.errSub = true
end

