-- ==== Sys2Proof/Laws/State.lean ====
section
/-! SUPPORT. One lemma per field per named update of State, each true by rfl, so that no later proof unfolds an update. -/

namespace Sys2Proof.Machine

variable (s : State)

/-! ### raise -/

@[simp] theorem State.raise_operand (e : ErrCause) : (s.raise e).operand = s.operand := rfl
@[simp] theorem State.raise_fsm (e : ErrCause) : (s.raise e).fsm = s.fsm := rfl
@[simp] theorem State.raise_phase (e : ErrCause) : (s.raise e).phase = s.phase := rfl
@[simp] theorem State.raise_rej (e : ErrCause) : (s.raise e).rej = s.rej := rfl
@[simp] theorem State.raise_frameValid (e : ErrCause) : (s.raise e).frameValid = s.frameValid := rfl
@[simp] theorem State.raise_errCode (e : ErrCause) : (s.raise e).errCode = e.code := rfl
@[simp] theorem State.raise_errSub (e : ErrCause) : (s.raise e).errSub = e.sub := rfl
@[simp] theorem State.raise_result (e : ErrCause) : (s.raise e).result = s.result := rfl
@[simp] theorem State.raise_vbytesLo (e : ErrCause) : (s.raise e).vbytesLo = s.vbytesLo := rfl
@[simp] theorem State.raise_vbytesHi (e : ErrCause) : (s.raise e).vbytesHi = s.vbytesHi := rfl
@[simp] theorem State.raise_vlen (e : ErrCause) : (s.raise e).vlen = s.vlen := rfl
@[simp] theorem State.raise_protoVer (e : ErrCause) : (s.raise e).protoVer = s.protoVer := rfl
@[simp] theorem State.raise_port (e : ErrCause) : (s.raise e).port = s.port := rfl
@[simp] theorem State.raise_connectTimeout (e : ErrCause) : (s.raise e).connectTimeout = s.connectTimeout := rfl
@[simp] theorem State.raise_readTimeout (e : ErrCause) : (s.raise e).readTimeout = s.readTimeout := rfl
@[simp] theorem State.raise_strLen (e : ErrCause) : (s.raise e).strLen = s.strLen := rfl
@[simp] theorem State.raise_txBodyLen (e : ErrCause) : (s.raise e).txBodyLen = s.txBodyLen := rfl
@[simp] theorem State.raise_txFrameLen (e : ErrCause) : (s.raise e).txFrameLen = s.txFrameLen := rfl
@[simp] theorem State.raise_txSent (e : ErrCause) : (s.raise e).txSent = s.txSent := rfl
@[simp] theorem State.raise_rxFrameLen (e : ErrCause) : (s.raise e).rxFrameLen = s.rxFrameLen := rfl
@[simp] theorem State.raise_rxRcvd (e : ErrCause) : (s.raise e).rxRcvd = s.rxRcvd := rfl
@[simp] theorem State.raise_rxCursor (e : ErrCause) : (s.raise e).rxCursor = s.rxCursor := rfl
@[simp] theorem State.raise_spanOff (e : ErrCause) : (s.raise e).spanOff = s.spanOff := rfl
@[simp] theorem State.raise_spanLen (e : ErrCause) : (s.raise e).spanLen = s.spanLen := rfl
@[simp] theorem State.raise_timer (e : ErrCause) : (s.raise e).timer = s.timer := rfl
@[simp] theorem State.raise_str (e : ErrCause) : (s.raise e).str = s.str := rfl
@[simp] theorem State.raise_body (e : ErrCause) : (s.raise e).body = s.body := rfl
@[simp] theorem State.raise_rx (e : ErrCause) : (s.raise e).rx = s.rx := rfl
@[simp] theorem State.raise_pfx (e : ErrCause) : (s.raise e).pfx = s.pfx := rfl
@[simp] theorem State.raise_plen (e : ErrCause) : (s.raise e).plen = s.plen := rfl
@[simp] theorem State.raise_lacc (e : ErrCause) : (s.raise e).lacc = s.lacc := rfl
@[simp] theorem State.raise_lcnt (e : ErrCause) : (s.raise e).lcnt = s.lcnt := rfl
@[simp] theorem State.raise_trace (e : ErrCause) : (s.raise e).trace = s.trace := rfl
@[simp] theorem State.raise_draws (e : ErrCause) : (s.raise e).draws = s.draws := rfl
@[simp] theorem State.raise_inputs (e : ErrCause) : (s.raise e).inputs = s.inputs := rfl
@[simp] theorem State.raise_reads (e : ErrCause) : (s.raise e).reads = s.reads := rfl

/-! ### fail -/

@[simp] theorem State.fail_operand (e : ErrCause) : (s.fail e).operand = s.operand := rfl
@[simp] theorem State.fail_fsm (e : ErrCause) : (s.fail e).fsm = .failed := rfl
@[simp] theorem State.fail_phase (e : ErrCause) : (s.fail e).phase = .done := rfl
@[simp] theorem State.fail_rej (e : ErrCause) : (s.fail e).rej = s.rej := rfl
@[simp] theorem State.fail_frameValid (e : ErrCause) : (s.fail e).frameValid = s.frameValid := rfl
@[simp] theorem State.fail_errCode (e : ErrCause) : (s.fail e).errCode = e.code := rfl
@[simp] theorem State.fail_errSub (e : ErrCause) : (s.fail e).errSub = e.sub := rfl
@[simp] theorem State.fail_result (e : ErrCause) : (s.fail e).result = s.result := rfl
@[simp] theorem State.fail_vbytesLo (e : ErrCause) : (s.fail e).vbytesLo = s.vbytesLo := rfl
@[simp] theorem State.fail_vbytesHi (e : ErrCause) : (s.fail e).vbytesHi = s.vbytesHi := rfl
@[simp] theorem State.fail_vlen (e : ErrCause) : (s.fail e).vlen = s.vlen := rfl
@[simp] theorem State.fail_protoVer (e : ErrCause) : (s.fail e).protoVer = s.protoVer := rfl
@[simp] theorem State.fail_port (e : ErrCause) : (s.fail e).port = s.port := rfl
@[simp] theorem State.fail_connectTimeout (e : ErrCause) : (s.fail e).connectTimeout = s.connectTimeout := rfl
@[simp] theorem State.fail_readTimeout (e : ErrCause) : (s.fail e).readTimeout = s.readTimeout := rfl
@[simp] theorem State.fail_strLen (e : ErrCause) : (s.fail e).strLen = s.strLen := rfl
@[simp] theorem State.fail_txBodyLen (e : ErrCause) : (s.fail e).txBodyLen = s.txBodyLen := rfl
@[simp] theorem State.fail_txFrameLen (e : ErrCause) : (s.fail e).txFrameLen = s.txFrameLen := rfl
@[simp] theorem State.fail_txSent (e : ErrCause) : (s.fail e).txSent = s.txSent := rfl
@[simp] theorem State.fail_rxFrameLen (e : ErrCause) : (s.fail e).rxFrameLen = s.rxFrameLen := rfl
@[simp] theorem State.fail_rxRcvd (e : ErrCause) : (s.fail e).rxRcvd = s.rxRcvd := rfl
@[simp] theorem State.fail_rxCursor (e : ErrCause) : (s.fail e).rxCursor = s.rxCursor := rfl
@[simp] theorem State.fail_spanOff (e : ErrCause) : (s.fail e).spanOff = s.spanOff := rfl
@[simp] theorem State.fail_spanLen (e : ErrCause) : (s.fail e).spanLen = s.spanLen := rfl
@[simp] theorem State.fail_timer (e : ErrCause) : (s.fail e).timer = s.timer := rfl
@[simp] theorem State.fail_str (e : ErrCause) : (s.fail e).str = s.str := rfl
@[simp] theorem State.fail_body (e : ErrCause) : (s.fail e).body = s.body := rfl
@[simp] theorem State.fail_rx (e : ErrCause) : (s.fail e).rx = s.rx := rfl
@[simp] theorem State.fail_pfx (e : ErrCause) : (s.fail e).pfx = s.pfx := rfl
@[simp] theorem State.fail_plen (e : ErrCause) : (s.fail e).plen = s.plen := rfl
@[simp] theorem State.fail_lacc (e : ErrCause) : (s.fail e).lacc = s.lacc := rfl
@[simp] theorem State.fail_lcnt (e : ErrCause) : (s.fail e).lcnt = s.lcnt := rfl
@[simp] theorem State.fail_trace (e : ErrCause) : (s.fail e).trace = s.trace ++ [.close] := rfl
@[simp] theorem State.fail_draws (e : ErrCause) : (s.fail e).draws = s.draws := rfl
@[simp] theorem State.fail_inputs (e : ErrCause) : (s.fail e).inputs = s.inputs := rfl
@[simp] theorem State.fail_reads (e : ErrCause) : (s.fail e).reads = s.reads := rfl

/-! ### accept -/

@[simp] theorem State.accept_operand : (s.accept).operand = s.operand := rfl
@[simp] theorem State.accept_fsm : (s.accept).fsm = s.fsm := rfl
@[simp] theorem State.accept_phase : (s.accept).phase = s.phase := rfl
@[simp] theorem State.accept_rej : (s.accept).rej = false := rfl
@[simp] theorem State.accept_frameValid : (s.accept).frameValid = s.frameValid := rfl
@[simp] theorem State.accept_errCode : (s.accept).errCode = 0 := rfl
@[simp] theorem State.accept_errSub : (s.accept).errSub = 0 := rfl
@[simp] theorem State.accept_result : (s.accept).result = s.result := rfl
@[simp] theorem State.accept_vbytesLo : (s.accept).vbytesLo = s.vbytesLo := rfl
@[simp] theorem State.accept_vbytesHi : (s.accept).vbytesHi = s.vbytesHi := rfl
@[simp] theorem State.accept_vlen : (s.accept).vlen = s.vlen := rfl
@[simp] theorem State.accept_protoVer : (s.accept).protoVer = s.protoVer := rfl
@[simp] theorem State.accept_port : (s.accept).port = s.port := rfl
@[simp] theorem State.accept_connectTimeout : (s.accept).connectTimeout = s.connectTimeout := rfl
@[simp] theorem State.accept_readTimeout : (s.accept).readTimeout = s.readTimeout := rfl
@[simp] theorem State.accept_strLen : (s.accept).strLen = s.strLen := rfl
@[simp] theorem State.accept_txBodyLen : (s.accept).txBodyLen = s.txBodyLen := rfl
@[simp] theorem State.accept_txFrameLen : (s.accept).txFrameLen = s.txFrameLen := rfl
@[simp] theorem State.accept_txSent : (s.accept).txSent = s.txSent := rfl
@[simp] theorem State.accept_rxFrameLen : (s.accept).rxFrameLen = s.rxFrameLen := rfl
@[simp] theorem State.accept_rxRcvd : (s.accept).rxRcvd = s.rxRcvd := rfl
@[simp] theorem State.accept_rxCursor : (s.accept).rxCursor = s.rxCursor := rfl
@[simp] theorem State.accept_spanOff : (s.accept).spanOff = s.spanOff := rfl
@[simp] theorem State.accept_spanLen : (s.accept).spanLen = s.spanLen := rfl
@[simp] theorem State.accept_timer : (s.accept).timer = s.timer := rfl
@[simp] theorem State.accept_str : (s.accept).str = s.str := rfl
@[simp] theorem State.accept_body : (s.accept).body = s.body := rfl
@[simp] theorem State.accept_rx : (s.accept).rx = s.rx := rfl
@[simp] theorem State.accept_pfx : (s.accept).pfx = s.pfx := rfl
@[simp] theorem State.accept_plen : (s.accept).plen = s.plen := rfl
@[simp] theorem State.accept_lacc : (s.accept).lacc = s.lacc := rfl
@[simp] theorem State.accept_lcnt : (s.accept).lcnt = s.lcnt := rfl
@[simp] theorem State.accept_trace : (s.accept).trace = s.trace := rfl
@[simp] theorem State.accept_draws : (s.accept).draws = s.draws := rfl
@[simp] theorem State.accept_inputs : (s.accept).inputs = s.inputs := rfl
@[simp] theorem State.accept_reads : (s.accept).reads = s.reads := rfl

/-! ### writeStr -/

@[simp] theorem State.writeStr_operand (a : Nat) (bs : List Byte) : (s.writeStr a bs).operand = s.operand := rfl
@[simp] theorem State.writeStr_fsm (a : Nat) (bs : List Byte) : (s.writeStr a bs).fsm = s.fsm := rfl
@[simp] theorem State.writeStr_phase (a : Nat) (bs : List Byte) : (s.writeStr a bs).phase = s.phase := rfl
@[simp] theorem State.writeStr_rej (a : Nat) (bs : List Byte) : (s.writeStr a bs).rej = s.rej := rfl
@[simp] theorem State.writeStr_frameValid (a : Nat) (bs : List Byte) : (s.writeStr a bs).frameValid = s.frameValid := rfl
@[simp] theorem State.writeStr_errCode (a : Nat) (bs : List Byte) : (s.writeStr a bs).errCode = s.errCode := rfl
@[simp] theorem State.writeStr_errSub (a : Nat) (bs : List Byte) : (s.writeStr a bs).errSub = s.errSub := rfl
@[simp] theorem State.writeStr_result (a : Nat) (bs : List Byte) : (s.writeStr a bs).result = s.result := rfl
@[simp] theorem State.writeStr_vbytesLo (a : Nat) (bs : List Byte) : (s.writeStr a bs).vbytesLo = s.vbytesLo := rfl
@[simp] theorem State.writeStr_vbytesHi (a : Nat) (bs : List Byte) : (s.writeStr a bs).vbytesHi = s.vbytesHi := rfl
@[simp] theorem State.writeStr_vlen (a : Nat) (bs : List Byte) : (s.writeStr a bs).vlen = s.vlen := rfl
@[simp] theorem State.writeStr_protoVer (a : Nat) (bs : List Byte) : (s.writeStr a bs).protoVer = s.protoVer := rfl
@[simp] theorem State.writeStr_port (a : Nat) (bs : List Byte) : (s.writeStr a bs).port = s.port := rfl
@[simp] theorem State.writeStr_connectTimeout (a : Nat) (bs : List Byte) : (s.writeStr a bs).connectTimeout = s.connectTimeout := rfl
@[simp] theorem State.writeStr_readTimeout (a : Nat) (bs : List Byte) : (s.writeStr a bs).readTimeout = s.readTimeout := rfl
@[simp] theorem State.writeStr_strLen (a : Nat) (bs : List Byte) : (s.writeStr a bs).strLen = s.strLen := rfl
@[simp] theorem State.writeStr_txBodyLen (a : Nat) (bs : List Byte) : (s.writeStr a bs).txBodyLen = s.txBodyLen := rfl
@[simp] theorem State.writeStr_txFrameLen (a : Nat) (bs : List Byte) : (s.writeStr a bs).txFrameLen = s.txFrameLen := rfl
@[simp] theorem State.writeStr_txSent (a : Nat) (bs : List Byte) : (s.writeStr a bs).txSent = s.txSent := rfl
@[simp] theorem State.writeStr_rxFrameLen (a : Nat) (bs : List Byte) : (s.writeStr a bs).rxFrameLen = s.rxFrameLen := rfl
@[simp] theorem State.writeStr_rxRcvd (a : Nat) (bs : List Byte) : (s.writeStr a bs).rxRcvd = s.rxRcvd := rfl
@[simp] theorem State.writeStr_rxCursor (a : Nat) (bs : List Byte) : (s.writeStr a bs).rxCursor = s.rxCursor := rfl
@[simp] theorem State.writeStr_spanOff (a : Nat) (bs : List Byte) : (s.writeStr a bs).spanOff = s.spanOff := rfl
@[simp] theorem State.writeStr_spanLen (a : Nat) (bs : List Byte) : (s.writeStr a bs).spanLen = s.spanLen := rfl
@[simp] theorem State.writeStr_timer (a : Nat) (bs : List Byte) : (s.writeStr a bs).timer = s.timer := rfl
@[simp] theorem State.writeStr_str (a : Nat) (bs : List Byte) : (s.writeStr a bs).str = Mem.writeRun (bufferSize .str) s.str a bs := rfl
@[simp] theorem State.writeStr_body (a : Nat) (bs : List Byte) : (s.writeStr a bs).body = s.body := rfl
@[simp] theorem State.writeStr_rx (a : Nat) (bs : List Byte) : (s.writeStr a bs).rx = s.rx := rfl
@[simp] theorem State.writeStr_pfx (a : Nat) (bs : List Byte) : (s.writeStr a bs).pfx = s.pfx := rfl
@[simp] theorem State.writeStr_plen (a : Nat) (bs : List Byte) : (s.writeStr a bs).plen = s.plen := rfl
@[simp] theorem State.writeStr_lacc (a : Nat) (bs : List Byte) : (s.writeStr a bs).lacc = s.lacc := rfl
@[simp] theorem State.writeStr_lcnt (a : Nat) (bs : List Byte) : (s.writeStr a bs).lcnt = s.lcnt := rfl
@[simp] theorem State.writeStr_trace (a : Nat) (bs : List Byte) : (s.writeStr a bs).trace = s.trace := rfl
@[simp] theorem State.writeStr_draws (a : Nat) (bs : List Byte) : (s.writeStr a bs).draws = s.draws := rfl
@[simp] theorem State.writeStr_inputs (a : Nat) (bs : List Byte) : (s.writeStr a bs).inputs = s.inputs := rfl
@[simp] theorem State.writeStr_reads (a : Nat) (bs : List Byte) : (s.writeStr a bs).reads = s.reads := rfl

/-! ### writeBody -/

@[simp] theorem State.writeBody_operand (a : Nat) (bs : List Byte) : (s.writeBody a bs).operand = s.operand := rfl
@[simp] theorem State.writeBody_fsm (a : Nat) (bs : List Byte) : (s.writeBody a bs).fsm = s.fsm := rfl
@[simp] theorem State.writeBody_phase (a : Nat) (bs : List Byte) : (s.writeBody a bs).phase = s.phase := rfl
@[simp] theorem State.writeBody_rej (a : Nat) (bs : List Byte) : (s.writeBody a bs).rej = s.rej := rfl
@[simp] theorem State.writeBody_frameValid (a : Nat) (bs : List Byte) : (s.writeBody a bs).frameValid = s.frameValid := rfl
@[simp] theorem State.writeBody_errCode (a : Nat) (bs : List Byte) : (s.writeBody a bs).errCode = s.errCode := rfl
@[simp] theorem State.writeBody_errSub (a : Nat) (bs : List Byte) : (s.writeBody a bs).errSub = s.errSub := rfl
@[simp] theorem State.writeBody_result (a : Nat) (bs : List Byte) : (s.writeBody a bs).result = s.result := rfl
@[simp] theorem State.writeBody_vbytesLo (a : Nat) (bs : List Byte) : (s.writeBody a bs).vbytesLo = s.vbytesLo := rfl
@[simp] theorem State.writeBody_vbytesHi (a : Nat) (bs : List Byte) : (s.writeBody a bs).vbytesHi = s.vbytesHi := rfl
@[simp] theorem State.writeBody_vlen (a : Nat) (bs : List Byte) : (s.writeBody a bs).vlen = s.vlen := rfl
@[simp] theorem State.writeBody_protoVer (a : Nat) (bs : List Byte) : (s.writeBody a bs).protoVer = s.protoVer := rfl
@[simp] theorem State.writeBody_port (a : Nat) (bs : List Byte) : (s.writeBody a bs).port = s.port := rfl
@[simp] theorem State.writeBody_connectTimeout (a : Nat) (bs : List Byte) : (s.writeBody a bs).connectTimeout = s.connectTimeout := rfl
@[simp] theorem State.writeBody_readTimeout (a : Nat) (bs : List Byte) : (s.writeBody a bs).readTimeout = s.readTimeout := rfl
@[simp] theorem State.writeBody_strLen (a : Nat) (bs : List Byte) : (s.writeBody a bs).strLen = s.strLen := rfl
@[simp] theorem State.writeBody_txBodyLen (a : Nat) (bs : List Byte) : (s.writeBody a bs).txBodyLen = s.txBodyLen := rfl
@[simp] theorem State.writeBody_txFrameLen (a : Nat) (bs : List Byte) : (s.writeBody a bs).txFrameLen = s.txFrameLen := rfl
@[simp] theorem State.writeBody_txSent (a : Nat) (bs : List Byte) : (s.writeBody a bs).txSent = s.txSent := rfl
@[simp] theorem State.writeBody_rxFrameLen (a : Nat) (bs : List Byte) : (s.writeBody a bs).rxFrameLen = s.rxFrameLen := rfl
@[simp] theorem State.writeBody_rxRcvd (a : Nat) (bs : List Byte) : (s.writeBody a bs).rxRcvd = s.rxRcvd := rfl
@[simp] theorem State.writeBody_rxCursor (a : Nat) (bs : List Byte) : (s.writeBody a bs).rxCursor = s.rxCursor := rfl
@[simp] theorem State.writeBody_spanOff (a : Nat) (bs : List Byte) : (s.writeBody a bs).spanOff = s.spanOff := rfl
@[simp] theorem State.writeBody_spanLen (a : Nat) (bs : List Byte) : (s.writeBody a bs).spanLen = s.spanLen := rfl
@[simp] theorem State.writeBody_timer (a : Nat) (bs : List Byte) : (s.writeBody a bs).timer = s.timer := rfl
@[simp] theorem State.writeBody_str (a : Nat) (bs : List Byte) : (s.writeBody a bs).str = s.str := rfl
@[simp] theorem State.writeBody_body (a : Nat) (bs : List Byte) : (s.writeBody a bs).body = Mem.writeRun (bufferSize .body) s.body a bs := rfl
@[simp] theorem State.writeBody_rx (a : Nat) (bs : List Byte) : (s.writeBody a bs).rx = s.rx := rfl
@[simp] theorem State.writeBody_pfx (a : Nat) (bs : List Byte) : (s.writeBody a bs).pfx = s.pfx := rfl
@[simp] theorem State.writeBody_plen (a : Nat) (bs : List Byte) : (s.writeBody a bs).plen = s.plen := rfl
@[simp] theorem State.writeBody_lacc (a : Nat) (bs : List Byte) : (s.writeBody a bs).lacc = s.lacc := rfl
@[simp] theorem State.writeBody_lcnt (a : Nat) (bs : List Byte) : (s.writeBody a bs).lcnt = s.lcnt := rfl
@[simp] theorem State.writeBody_trace (a : Nat) (bs : List Byte) : (s.writeBody a bs).trace = s.trace := rfl
@[simp] theorem State.writeBody_draws (a : Nat) (bs : List Byte) : (s.writeBody a bs).draws = s.draws := rfl
@[simp] theorem State.writeBody_inputs (a : Nat) (bs : List Byte) : (s.writeBody a bs).inputs = s.inputs := rfl
@[simp] theorem State.writeBody_reads (a : Nat) (bs : List Byte) : (s.writeBody a bs).reads = s.reads := rfl

/-! ### writeRx -/

@[simp] theorem State.writeRx_operand (a : Nat) (bs : List Byte) : (s.writeRx a bs).operand = s.operand := rfl
@[simp] theorem State.writeRx_fsm (a : Nat) (bs : List Byte) : (s.writeRx a bs).fsm = s.fsm := rfl
@[simp] theorem State.writeRx_phase (a : Nat) (bs : List Byte) : (s.writeRx a bs).phase = s.phase := rfl
@[simp] theorem State.writeRx_rej (a : Nat) (bs : List Byte) : (s.writeRx a bs).rej = s.rej := rfl
@[simp] theorem State.writeRx_frameValid (a : Nat) (bs : List Byte) : (s.writeRx a bs).frameValid = s.frameValid := rfl
@[simp] theorem State.writeRx_errCode (a : Nat) (bs : List Byte) : (s.writeRx a bs).errCode = s.errCode := rfl
@[simp] theorem State.writeRx_errSub (a : Nat) (bs : List Byte) : (s.writeRx a bs).errSub = s.errSub := rfl
@[simp] theorem State.writeRx_result (a : Nat) (bs : List Byte) : (s.writeRx a bs).result = s.result := rfl
@[simp] theorem State.writeRx_vbytesLo (a : Nat) (bs : List Byte) : (s.writeRx a bs).vbytesLo = s.vbytesLo := rfl
@[simp] theorem State.writeRx_vbytesHi (a : Nat) (bs : List Byte) : (s.writeRx a bs).vbytesHi = s.vbytesHi := rfl
@[simp] theorem State.writeRx_vlen (a : Nat) (bs : List Byte) : (s.writeRx a bs).vlen = s.vlen := rfl
@[simp] theorem State.writeRx_protoVer (a : Nat) (bs : List Byte) : (s.writeRx a bs).protoVer = s.protoVer := rfl
@[simp] theorem State.writeRx_port (a : Nat) (bs : List Byte) : (s.writeRx a bs).port = s.port := rfl
@[simp] theorem State.writeRx_connectTimeout (a : Nat) (bs : List Byte) : (s.writeRx a bs).connectTimeout = s.connectTimeout := rfl
@[simp] theorem State.writeRx_readTimeout (a : Nat) (bs : List Byte) : (s.writeRx a bs).readTimeout = s.readTimeout := rfl
@[simp] theorem State.writeRx_strLen (a : Nat) (bs : List Byte) : (s.writeRx a bs).strLen = s.strLen := rfl
@[simp] theorem State.writeRx_txBodyLen (a : Nat) (bs : List Byte) : (s.writeRx a bs).txBodyLen = s.txBodyLen := rfl
@[simp] theorem State.writeRx_txFrameLen (a : Nat) (bs : List Byte) : (s.writeRx a bs).txFrameLen = s.txFrameLen := rfl
@[simp] theorem State.writeRx_txSent (a : Nat) (bs : List Byte) : (s.writeRx a bs).txSent = s.txSent := rfl
@[simp] theorem State.writeRx_rxFrameLen (a : Nat) (bs : List Byte) : (s.writeRx a bs).rxFrameLen = s.rxFrameLen := rfl
@[simp] theorem State.writeRx_rxRcvd (a : Nat) (bs : List Byte) : (s.writeRx a bs).rxRcvd = s.rxRcvd := rfl
@[simp] theorem State.writeRx_rxCursor (a : Nat) (bs : List Byte) : (s.writeRx a bs).rxCursor = s.rxCursor := rfl
@[simp] theorem State.writeRx_spanOff (a : Nat) (bs : List Byte) : (s.writeRx a bs).spanOff = s.spanOff := rfl
@[simp] theorem State.writeRx_spanLen (a : Nat) (bs : List Byte) : (s.writeRx a bs).spanLen = s.spanLen := rfl
@[simp] theorem State.writeRx_timer (a : Nat) (bs : List Byte) : (s.writeRx a bs).timer = s.timer := rfl
@[simp] theorem State.writeRx_str (a : Nat) (bs : List Byte) : (s.writeRx a bs).str = s.str := rfl
@[simp] theorem State.writeRx_body (a : Nat) (bs : List Byte) : (s.writeRx a bs).body = s.body := rfl
@[simp] theorem State.writeRx_rx (a : Nat) (bs : List Byte) : (s.writeRx a bs).rx = Mem.writeRun (bufferSize .rx) s.rx a bs := rfl
@[simp] theorem State.writeRx_pfx (a : Nat) (bs : List Byte) : (s.writeRx a bs).pfx = s.pfx := rfl
@[simp] theorem State.writeRx_plen (a : Nat) (bs : List Byte) : (s.writeRx a bs).plen = s.plen := rfl
@[simp] theorem State.writeRx_lacc (a : Nat) (bs : List Byte) : (s.writeRx a bs).lacc = s.lacc := rfl
@[simp] theorem State.writeRx_lcnt (a : Nat) (bs : List Byte) : (s.writeRx a bs).lcnt = s.lcnt := rfl
@[simp] theorem State.writeRx_trace (a : Nat) (bs : List Byte) : (s.writeRx a bs).trace = s.trace := rfl
@[simp] theorem State.writeRx_draws (a : Nat) (bs : List Byte) : (s.writeRx a bs).draws = s.draws := rfl
@[simp] theorem State.writeRx_inputs (a : Nat) (bs : List Byte) : (s.writeRx a bs).inputs = s.inputs := rfl
@[simp] theorem State.writeRx_reads (a : Nat) (bs : List Byte) : (s.writeRx a bs).reads = s.reads := rfl

/-! ### putVarint -/

@[simp] theorem State.putVarint_operand (e : List Byte) : (s.putVarint e).operand = s.operand := rfl
@[simp] theorem State.putVarint_fsm (e : List Byte) : (s.putVarint e).fsm = s.fsm := rfl
@[simp] theorem State.putVarint_phase (e : List Byte) : (s.putVarint e).phase = s.phase := rfl
@[simp] theorem State.putVarint_rej (e : List Byte) : (s.putVarint e).rej = s.rej := rfl
@[simp] theorem State.putVarint_frameValid (e : List Byte) : (s.putVarint e).frameValid = s.frameValid := rfl
@[simp] theorem State.putVarint_errCode (e : List Byte) : (s.putVarint e).errCode = s.errCode := rfl
@[simp] theorem State.putVarint_errSub (e : List Byte) : (s.putVarint e).errSub = s.errSub := rfl
@[simp] theorem State.putVarint_result (e : List Byte) : (s.putVarint e).result = s.result := rfl
@[simp] theorem State.putVarint_vbytesLo (e : List Byte) : (s.putVarint e).vbytesLo = packBytes (e.getD 0 0) (e.getD 1 0) (e.getD 2 0) (e.getD 3 0) := rfl
@[simp] theorem State.putVarint_vbytesHi (e : List Byte) : (s.putVarint e).vbytesHi = e.getD 4 0 := rfl
@[simp] theorem State.putVarint_vlen (e : List Byte) : (s.putVarint e).vlen = BitVec.ofNat 3 e.length := rfl
@[simp] theorem State.putVarint_protoVer (e : List Byte) : (s.putVarint e).protoVer = s.protoVer := rfl
@[simp] theorem State.putVarint_port (e : List Byte) : (s.putVarint e).port = s.port := rfl
@[simp] theorem State.putVarint_connectTimeout (e : List Byte) : (s.putVarint e).connectTimeout = s.connectTimeout := rfl
@[simp] theorem State.putVarint_readTimeout (e : List Byte) : (s.putVarint e).readTimeout = s.readTimeout := rfl
@[simp] theorem State.putVarint_strLen (e : List Byte) : (s.putVarint e).strLen = s.strLen := rfl
@[simp] theorem State.putVarint_txBodyLen (e : List Byte) : (s.putVarint e).txBodyLen = s.txBodyLen := rfl
@[simp] theorem State.putVarint_txFrameLen (e : List Byte) : (s.putVarint e).txFrameLen = s.txFrameLen := rfl
@[simp] theorem State.putVarint_txSent (e : List Byte) : (s.putVarint e).txSent = s.txSent := rfl
@[simp] theorem State.putVarint_rxFrameLen (e : List Byte) : (s.putVarint e).rxFrameLen = s.rxFrameLen := rfl
@[simp] theorem State.putVarint_rxRcvd (e : List Byte) : (s.putVarint e).rxRcvd = s.rxRcvd := rfl
@[simp] theorem State.putVarint_rxCursor (e : List Byte) : (s.putVarint e).rxCursor = s.rxCursor := rfl
@[simp] theorem State.putVarint_spanOff (e : List Byte) : (s.putVarint e).spanOff = s.spanOff := rfl
@[simp] theorem State.putVarint_spanLen (e : List Byte) : (s.putVarint e).spanLen = s.spanLen := rfl
@[simp] theorem State.putVarint_timer (e : List Byte) : (s.putVarint e).timer = s.timer := rfl
@[simp] theorem State.putVarint_str (e : List Byte) : (s.putVarint e).str = s.str := rfl
@[simp] theorem State.putVarint_body (e : List Byte) : (s.putVarint e).body = s.body := rfl
@[simp] theorem State.putVarint_rx (e : List Byte) : (s.putVarint e).rx = s.rx := rfl
@[simp] theorem State.putVarint_pfx (e : List Byte) : (s.putVarint e).pfx = s.pfx := rfl
@[simp] theorem State.putVarint_plen (e : List Byte) : (s.putVarint e).plen = s.plen := rfl
@[simp] theorem State.putVarint_lacc (e : List Byte) : (s.putVarint e).lacc = s.lacc := rfl
@[simp] theorem State.putVarint_lcnt (e : List Byte) : (s.putVarint e).lcnt = s.lcnt := rfl
@[simp] theorem State.putVarint_trace (e : List Byte) : (s.putVarint e).trace = s.trace := rfl
@[simp] theorem State.putVarint_draws (e : List Byte) : (s.putVarint e).draws = s.draws := rfl
@[simp] theorem State.putVarint_inputs (e : List Byte) : (s.putVarint e).inputs = s.inputs := rfl
@[simp] theorem State.putVarint_reads (e : List Byte) : (s.putVarint e).reads = s.reads := rfl

/-! ### appended -/

@[simp] theorem State.appended_operand (bs : List Byte) : (s.appended bs).operand = s.operand := rfl
@[simp] theorem State.appended_fsm (bs : List Byte) : (s.appended bs).fsm = s.fsm := rfl
@[simp] theorem State.appended_phase (bs : List Byte) : (s.appended bs).phase = s.phase := rfl
@[simp] theorem State.appended_rej (bs : List Byte) : (s.appended bs).rej = s.rej := rfl
@[simp] theorem State.appended_frameValid (bs : List Byte) : (s.appended bs).frameValid = false := rfl
@[simp] theorem State.appended_errCode (bs : List Byte) : (s.appended bs).errCode = s.errCode := rfl
@[simp] theorem State.appended_errSub (bs : List Byte) : (s.appended bs).errSub = s.errSub := rfl
@[simp] theorem State.appended_result (bs : List Byte) : (s.appended bs).result = s.result := rfl
@[simp] theorem State.appended_vbytesLo (bs : List Byte) : (s.appended bs).vbytesLo = s.vbytesLo := rfl
@[simp] theorem State.appended_vbytesHi (bs : List Byte) : (s.appended bs).vbytesHi = s.vbytesHi := rfl
@[simp] theorem State.appended_vlen (bs : List Byte) : (s.appended bs).vlen = s.vlen := rfl
@[simp] theorem State.appended_protoVer (bs : List Byte) : (s.appended bs).protoVer = s.protoVer := rfl
@[simp] theorem State.appended_port (bs : List Byte) : (s.appended bs).port = s.port := rfl
@[simp] theorem State.appended_connectTimeout (bs : List Byte) : (s.appended bs).connectTimeout = s.connectTimeout := rfl
@[simp] theorem State.appended_readTimeout (bs : List Byte) : (s.appended bs).readTimeout = s.readTimeout := rfl
@[simp] theorem State.appended_strLen (bs : List Byte) : (s.appended bs).strLen = s.strLen := rfl
@[simp] theorem State.appended_txBodyLen (bs : List Byte) : (s.appended bs).txBodyLen = BitVec.ofNat 10 (s.txBodyLen.toNat + bs.length) := rfl
@[simp] theorem State.appended_txFrameLen (bs : List Byte) : (s.appended bs).txFrameLen = 0 := rfl
@[simp] theorem State.appended_txSent (bs : List Byte) : (s.appended bs).txSent = s.txSent := rfl
@[simp] theorem State.appended_rxFrameLen (bs : List Byte) : (s.appended bs).rxFrameLen = s.rxFrameLen := rfl
@[simp] theorem State.appended_rxRcvd (bs : List Byte) : (s.appended bs).rxRcvd = s.rxRcvd := rfl
@[simp] theorem State.appended_rxCursor (bs : List Byte) : (s.appended bs).rxCursor = s.rxCursor := rfl
@[simp] theorem State.appended_spanOff (bs : List Byte) : (s.appended bs).spanOff = s.spanOff := rfl
@[simp] theorem State.appended_spanLen (bs : List Byte) : (s.appended bs).spanLen = s.spanLen := rfl
@[simp] theorem State.appended_timer (bs : List Byte) : (s.appended bs).timer = s.timer := rfl
@[simp] theorem State.appended_str (bs : List Byte) : (s.appended bs).str = s.str := rfl
@[simp] theorem State.appended_body (bs : List Byte) : (s.appended bs).body = Mem.writeRun (bufferSize .body) s.body s.txBodyLen.toNat bs := rfl
@[simp] theorem State.appended_rx (bs : List Byte) : (s.appended bs).rx = s.rx := rfl
@[simp] theorem State.appended_pfx (bs : List Byte) : (s.appended bs).pfx = s.pfx := rfl
@[simp] theorem State.appended_plen (bs : List Byte) : (s.appended bs).plen = s.plen := rfl
@[simp] theorem State.appended_lacc (bs : List Byte) : (s.appended bs).lacc = s.lacc := rfl
@[simp] theorem State.appended_lcnt (bs : List Byte) : (s.appended bs).lcnt = s.lcnt := rfl
@[simp] theorem State.appended_trace (bs : List Byte) : (s.appended bs).trace = s.trace := rfl
@[simp] theorem State.appended_draws (bs : List Byte) : (s.appended bs).draws = s.draws := rfl
@[simp] theorem State.appended_inputs (bs : List Byte) : (s.appended bs).inputs = s.inputs := rfl
@[simp] theorem State.appended_reads (bs : List Byte) : (s.appended bs).reads = s.reads := rfl

/-! ### builderReset -/

@[simp] theorem State.builderReset_operand : (s.builderReset).operand = s.operand := rfl
@[simp] theorem State.builderReset_fsm : (s.builderReset).fsm = s.fsm := rfl
@[simp] theorem State.builderReset_phase : (s.builderReset).phase = s.phase := rfl
@[simp] theorem State.builderReset_rej : (s.builderReset).rej = s.rej := rfl
@[simp] theorem State.builderReset_frameValid : (s.builderReset).frameValid = false := rfl
@[simp] theorem State.builderReset_errCode : (s.builderReset).errCode = s.errCode := rfl
@[simp] theorem State.builderReset_errSub : (s.builderReset).errSub = s.errSub := rfl
@[simp] theorem State.builderReset_result : (s.builderReset).result = s.result := rfl
@[simp] theorem State.builderReset_vbytesLo : (s.builderReset).vbytesLo = s.vbytesLo := rfl
@[simp] theorem State.builderReset_vbytesHi : (s.builderReset).vbytesHi = s.vbytesHi := rfl
@[simp] theorem State.builderReset_vlen : (s.builderReset).vlen = s.vlen := rfl
@[simp] theorem State.builderReset_protoVer : (s.builderReset).protoVer = s.protoVer := rfl
@[simp] theorem State.builderReset_port : (s.builderReset).port = s.port := rfl
@[simp] theorem State.builderReset_connectTimeout : (s.builderReset).connectTimeout = s.connectTimeout := rfl
@[simp] theorem State.builderReset_readTimeout : (s.builderReset).readTimeout = s.readTimeout := rfl
@[simp] theorem State.builderReset_strLen : (s.builderReset).strLen = s.strLen := rfl
@[simp] theorem State.builderReset_txBodyLen : (s.builderReset).txBodyLen = 0 := rfl
@[simp] theorem State.builderReset_txFrameLen : (s.builderReset).txFrameLen = 0 := rfl
@[simp] theorem State.builderReset_txSent : (s.builderReset).txSent = s.txSent := rfl
@[simp] theorem State.builderReset_rxFrameLen : (s.builderReset).rxFrameLen = s.rxFrameLen := rfl
@[simp] theorem State.builderReset_rxRcvd : (s.builderReset).rxRcvd = s.rxRcvd := rfl
@[simp] theorem State.builderReset_rxCursor : (s.builderReset).rxCursor = s.rxCursor := rfl
@[simp] theorem State.builderReset_spanOff : (s.builderReset).spanOff = s.spanOff := rfl
@[simp] theorem State.builderReset_spanLen : (s.builderReset).spanLen = s.spanLen := rfl
@[simp] theorem State.builderReset_timer : (s.builderReset).timer = s.timer := rfl
@[simp] theorem State.builderReset_str : (s.builderReset).str = s.str := rfl
@[simp] theorem State.builderReset_body : (s.builderReset).body = s.body := rfl
@[simp] theorem State.builderReset_rx : (s.builderReset).rx = s.rx := rfl
@[simp] theorem State.builderReset_pfx : (s.builderReset).pfx = s.pfx := rfl
@[simp] theorem State.builderReset_plen : (s.builderReset).plen = 0 := rfl
@[simp] theorem State.builderReset_lacc : (s.builderReset).lacc = s.lacc := rfl
@[simp] theorem State.builderReset_lcnt : (s.builderReset).lcnt = s.lcnt := rfl
@[simp] theorem State.builderReset_trace : (s.builderReset).trace = s.trace := rfl
@[simp] theorem State.builderReset_draws : (s.builderReset).draws = s.draws := rfl
@[simp] theorem State.builderReset_inputs : (s.builderReset).inputs = s.inputs := rfl
@[simp] theorem State.builderReset_reads : (s.builderReset).reads = s.reads := rfl

/-! ### finish -/

@[simp] theorem State.finish_operand : (s.finish).operand = s.operand := rfl
@[simp] theorem State.finish_fsm : (s.finish).fsm = s.fsm := rfl
@[simp] theorem State.finish_phase : (s.finish).phase = s.phase := rfl
@[simp] theorem State.finish_rej : (s.finish).rej = s.rej := rfl
@[simp] theorem State.finish_frameValid : (s.finish).frameValid = true := rfl
@[simp] theorem State.finish_errCode : (s.finish).errCode = s.errCode := rfl
@[simp] theorem State.finish_errSub : (s.finish).errSub = s.errSub := rfl
@[simp] theorem State.finish_result : (s.finish).result = s.result := rfl
@[simp] theorem State.finish_vbytesLo : (s.finish).vbytesLo = s.vbytesLo := rfl
@[simp] theorem State.finish_vbytesHi : (s.finish).vbytesHi = s.vbytesHi := rfl
@[simp] theorem State.finish_vlen : (s.finish).vlen = s.vlen := rfl
@[simp] theorem State.finish_protoVer : (s.finish).protoVer = s.protoVer := rfl
@[simp] theorem State.finish_port : (s.finish).port = s.port := rfl
@[simp] theorem State.finish_connectTimeout : (s.finish).connectTimeout = s.connectTimeout := rfl
@[simp] theorem State.finish_readTimeout : (s.finish).readTimeout = s.readTimeout := rfl
@[simp] theorem State.finish_strLen : (s.finish).strLen = s.strLen := rfl
@[simp] theorem State.finish_txBodyLen : (s.finish).txBodyLen = s.txBodyLen := rfl
@[simp] theorem State.finish_txFrameLen : (s.finish).txFrameLen = BitVec.ofNat 11 ((venc (s.txBodyLen.setWidth 32)).length + s.txBodyLen.toNat) := rfl
@[simp] theorem State.finish_txSent : (s.finish).txSent = s.txSent := rfl
@[simp] theorem State.finish_rxFrameLen : (s.finish).rxFrameLen = s.rxFrameLen := rfl
@[simp] theorem State.finish_rxRcvd : (s.finish).rxRcvd = s.rxRcvd := rfl
@[simp] theorem State.finish_rxCursor : (s.finish).rxCursor = s.rxCursor := rfl
@[simp] theorem State.finish_spanOff : (s.finish).spanOff = s.spanOff := rfl
@[simp] theorem State.finish_spanLen : (s.finish).spanLen = s.spanLen := rfl
@[simp] theorem State.finish_timer : (s.finish).timer = s.timer := rfl
@[simp] theorem State.finish_str : (s.finish).str = s.str := rfl
@[simp] theorem State.finish_body : (s.finish).body = s.body := rfl
@[simp] theorem State.finish_rx : (s.finish).rx = s.rx := rfl
@[simp] theorem State.finish_pfx : (s.finish).pfx = venc (s.txBodyLen.setWidth 32) ++ s.pfx.drop (venc (s.txBodyLen.setWidth 32)).length := rfl
@[simp] theorem State.finish_plen : (s.finish).plen = BitVec.ofNat 3 (venc (s.txBodyLen.setWidth 32)).length := rfl
@[simp] theorem State.finish_lacc : (s.finish).lacc = s.lacc := rfl
@[simp] theorem State.finish_lcnt : (s.finish).lcnt = s.lcnt := rfl
@[simp] theorem State.finish_trace : (s.finish).trace = s.trace := rfl
@[simp] theorem State.finish_draws : (s.finish).draws = s.draws := rfl
@[simp] theorem State.finish_inputs : (s.finish).inputs = s.inputs := rfl
@[simp] theorem State.finish_reads : (s.finish).reads = s.reads := rfl

/-! ### startRun -/

@[simp] theorem State.startRun_operand : (s.startRun).operand = s.operand := rfl
@[simp] theorem State.startRun_fsm : (s.startRun).fsm = .idle := rfl
@[simp] theorem State.startRun_phase : (s.startRun).phase = .connecting := rfl
@[simp] theorem State.startRun_rej : (s.startRun).rej = s.rej := rfl
@[simp] theorem State.startRun_frameValid : (s.startRun).frameValid = s.frameValid := rfl
@[simp] theorem State.startRun_errCode : (s.startRun).errCode = s.errCode := rfl
@[simp] theorem State.startRun_errSub : (s.startRun).errSub = s.errSub := rfl
@[simp] theorem State.startRun_result : (s.startRun).result = s.result := rfl
@[simp] theorem State.startRun_vbytesLo : (s.startRun).vbytesLo = s.vbytesLo := rfl
@[simp] theorem State.startRun_vbytesHi : (s.startRun).vbytesHi = s.vbytesHi := rfl
@[simp] theorem State.startRun_vlen : (s.startRun).vlen = s.vlen := rfl
@[simp] theorem State.startRun_protoVer : (s.startRun).protoVer = s.protoVer := rfl
@[simp] theorem State.startRun_port : (s.startRun).port = s.port := rfl
@[simp] theorem State.startRun_connectTimeout : (s.startRun).connectTimeout = s.connectTimeout := rfl
@[simp] theorem State.startRun_readTimeout : (s.startRun).readTimeout = s.readTimeout := rfl
@[simp] theorem State.startRun_strLen : (s.startRun).strLen = s.strLen := rfl
@[simp] theorem State.startRun_txBodyLen : (s.startRun).txBodyLen = s.txBodyLen := rfl
@[simp] theorem State.startRun_txFrameLen : (s.startRun).txFrameLen = s.txFrameLen := rfl
@[simp] theorem State.startRun_txSent : (s.startRun).txSent = 0 := rfl
@[simp] theorem State.startRun_rxFrameLen : (s.startRun).rxFrameLen = s.rxFrameLen := rfl
@[simp] theorem State.startRun_rxRcvd : (s.startRun).rxRcvd = s.rxRcvd := rfl
@[simp] theorem State.startRun_rxCursor : (s.startRun).rxCursor = s.rxCursor := rfl
@[simp] theorem State.startRun_spanOff : (s.startRun).spanOff = s.spanOff := rfl
@[simp] theorem State.startRun_spanLen : (s.startRun).spanLen = s.spanLen := rfl
@[simp] theorem State.startRun_timer : (s.startRun).timer = 0 := rfl
@[simp] theorem State.startRun_str : (s.startRun).str = s.str := rfl
@[simp] theorem State.startRun_body : (s.startRun).body = s.body := rfl
@[simp] theorem State.startRun_rx : (s.startRun).rx = s.rx := rfl
@[simp] theorem State.startRun_pfx : (s.startRun).pfx = s.pfx := rfl
@[simp] theorem State.startRun_plen : (s.startRun).plen = s.plen := rfl
@[simp] theorem State.startRun_lacc : (s.startRun).lacc = s.lacc := rfl
@[simp] theorem State.startRun_lcnt : (s.startRun).lcnt = s.lcnt := rfl
@[simp] theorem State.startRun_trace : (s.startRun).trace = s.trace ++ [.connReq s.strBytes s.port] := rfl
@[simp] theorem State.startRun_draws : (s.startRun).draws = s.draws := rfl
@[simp] theorem State.startRun_inputs : (s.startRun).inputs = s.inputs := rfl
@[simp] theorem State.startRun_reads : (s.startRun).reads = s.reads := rfl

/-! ### success -/

@[simp] theorem State.success_operand : (s.success).operand = s.operand := rfl
@[simp] theorem State.success_fsm : (s.success).fsm = .responseReceived := rfl
@[simp] theorem State.success_phase : (s.success).phase = .done := rfl
@[simp] theorem State.success_rej : (s.success).rej = s.rej := rfl
@[simp] theorem State.success_frameValid : (s.success).frameValid = s.frameValid := rfl
@[simp] theorem State.success_errCode : (s.success).errCode = s.errCode := rfl
@[simp] theorem State.success_errSub : (s.success).errSub = s.errSub := rfl
@[simp] theorem State.success_result : (s.success).result = s.result := rfl
@[simp] theorem State.success_vbytesLo : (s.success).vbytesLo = s.vbytesLo := rfl
@[simp] theorem State.success_vbytesHi : (s.success).vbytesHi = s.vbytesHi := rfl
@[simp] theorem State.success_vlen : (s.success).vlen = s.vlen := rfl
@[simp] theorem State.success_protoVer : (s.success).protoVer = s.protoVer := rfl
@[simp] theorem State.success_port : (s.success).port = s.port := rfl
@[simp] theorem State.success_connectTimeout : (s.success).connectTimeout = s.connectTimeout := rfl
@[simp] theorem State.success_readTimeout : (s.success).readTimeout = s.readTimeout := rfl
@[simp] theorem State.success_strLen : (s.success).strLen = s.strLen := rfl
@[simp] theorem State.success_txBodyLen : (s.success).txBodyLen = s.txBodyLen := rfl
@[simp] theorem State.success_txFrameLen : (s.success).txFrameLen = s.txFrameLen := rfl
@[simp] theorem State.success_txSent : (s.success).txSent = s.txSent := rfl
@[simp] theorem State.success_rxFrameLen : (s.success).rxFrameLen = s.rxFrameLen := rfl
@[simp] theorem State.success_rxRcvd : (s.success).rxRcvd = s.rxRcvd := rfl
@[simp] theorem State.success_rxCursor : (s.success).rxCursor = s.rxCursor := rfl
@[simp] theorem State.success_spanOff : (s.success).spanOff = s.spanOff := rfl
@[simp] theorem State.success_spanLen : (s.success).spanLen = s.spanLen := rfl
@[simp] theorem State.success_timer : (s.success).timer = s.timer := rfl
@[simp] theorem State.success_str : (s.success).str = s.str := rfl
@[simp] theorem State.success_body : (s.success).body = s.body := rfl
@[simp] theorem State.success_rx : (s.success).rx = s.rx := rfl
@[simp] theorem State.success_pfx : (s.success).pfx = s.pfx := rfl
@[simp] theorem State.success_plen : (s.success).plen = s.plen := rfl
@[simp] theorem State.success_lacc : (s.success).lacc = s.lacc := rfl
@[simp] theorem State.success_lcnt : (s.success).lcnt = s.lcnt := rfl
@[simp] theorem State.success_trace : (s.success).trace = s.trace ++ [.close] := rfl
@[simp] theorem State.success_draws : (s.success).draws = s.draws := rfl
@[simp] theorem State.success_inputs : (s.success).inputs = s.inputs := rfl
@[simp] theorem State.success_reads : (s.success).reads = s.reads := rfl

/-! ### requestSent -/

@[simp] theorem State.requestSent_operand : (s.requestSent).operand = s.operand := rfl
@[simp] theorem State.requestSent_fsm : (s.requestSent).fsm = .statusRequested := rfl
@[simp] theorem State.requestSent_phase : (s.requestSent).phase = .recvLen := rfl
@[simp] theorem State.requestSent_rej : (s.requestSent).rej = s.rej := rfl
@[simp] theorem State.requestSent_frameValid : (s.requestSent).frameValid = s.frameValid := rfl
@[simp] theorem State.requestSent_errCode : (s.requestSent).errCode = s.errCode := rfl
@[simp] theorem State.requestSent_errSub : (s.requestSent).errSub = s.errSub := rfl
@[simp] theorem State.requestSent_result : (s.requestSent).result = s.result := rfl
@[simp] theorem State.requestSent_vbytesLo : (s.requestSent).vbytesLo = s.vbytesLo := rfl
@[simp] theorem State.requestSent_vbytesHi : (s.requestSent).vbytesHi = s.vbytesHi := rfl
@[simp] theorem State.requestSent_vlen : (s.requestSent).vlen = s.vlen := rfl
@[simp] theorem State.requestSent_protoVer : (s.requestSent).protoVer = s.protoVer := rfl
@[simp] theorem State.requestSent_port : (s.requestSent).port = s.port := rfl
@[simp] theorem State.requestSent_connectTimeout : (s.requestSent).connectTimeout = s.connectTimeout := rfl
@[simp] theorem State.requestSent_readTimeout : (s.requestSent).readTimeout = s.readTimeout := rfl
@[simp] theorem State.requestSent_strLen : (s.requestSent).strLen = s.strLen := rfl
@[simp] theorem State.requestSent_txBodyLen : (s.requestSent).txBodyLen = s.txBodyLen := rfl
@[simp] theorem State.requestSent_txFrameLen : (s.requestSent).txFrameLen = s.txFrameLen := rfl
@[simp] theorem State.requestSent_txSent : (s.requestSent).txSent = s.txSent := rfl
@[simp] theorem State.requestSent_rxFrameLen : (s.requestSent).rxFrameLen = 0 := rfl
@[simp] theorem State.requestSent_rxRcvd : (s.requestSent).rxRcvd = 0 := rfl
@[simp] theorem State.requestSent_rxCursor : (s.requestSent).rxCursor = 0 := rfl
@[simp] theorem State.requestSent_spanOff : (s.requestSent).spanOff = s.spanOff := rfl
@[simp] theorem State.requestSent_spanLen : (s.requestSent).spanLen = s.spanLen := rfl
@[simp] theorem State.requestSent_timer : (s.requestSent).timer = 0 := rfl
@[simp] theorem State.requestSent_str : (s.requestSent).str = s.str := rfl
@[simp] theorem State.requestSent_body : (s.requestSent).body = s.body := rfl
@[simp] theorem State.requestSent_rx : (s.requestSent).rx = s.rx := rfl
@[simp] theorem State.requestSent_pfx : (s.requestSent).pfx = s.pfx := rfl
@[simp] theorem State.requestSent_plen : (s.requestSent).plen = s.plen := rfl
@[simp] theorem State.requestSent_lacc : (s.requestSent).lacc = 0 := rfl
@[simp] theorem State.requestSent_lcnt : (s.requestSent).lcnt = 0 := rfl
@[simp] theorem State.requestSent_trace : (s.requestSent).trace = s.trace := rfl
@[simp] theorem State.requestSent_draws : (s.requestSent).draws = s.draws := rfl
@[simp] theorem State.requestSent_inputs : (s.requestSent).inputs = s.inputs := rfl
@[simp] theorem State.requestSent_reads : (s.requestSent).reads = s.reads := rfl

/-! ### busRead -/

@[simp] theorem State.busRead_operand (off : Half) : (s.busRead off).operand = s.operand := rfl
@[simp] theorem State.busRead_fsm (off : Half) : (s.busRead off).fsm = s.fsm := rfl
@[simp] theorem State.busRead_phase (off : Half) : (s.busRead off).phase = s.phase := rfl
@[simp] theorem State.busRead_rej (off : Half) : (s.busRead off).rej = s.rej := rfl
@[simp] theorem State.busRead_frameValid (off : Half) : (s.busRead off).frameValid = s.frameValid := rfl
@[simp] theorem State.busRead_errCode (off : Half) : (s.busRead off).errCode = s.errCode := rfl
@[simp] theorem State.busRead_errSub (off : Half) : (s.busRead off).errSub = s.errSub := rfl
@[simp] theorem State.busRead_result (off : Half) : (s.busRead off).result = s.result := rfl
@[simp] theorem State.busRead_vbytesLo (off : Half) : (s.busRead off).vbytesLo = s.vbytesLo := rfl
@[simp] theorem State.busRead_vbytesHi (off : Half) : (s.busRead off).vbytesHi = s.vbytesHi := rfl
@[simp] theorem State.busRead_vlen (off : Half) : (s.busRead off).vlen = s.vlen := rfl
@[simp] theorem State.busRead_protoVer (off : Half) : (s.busRead off).protoVer = s.protoVer := rfl
@[simp] theorem State.busRead_port (off : Half) : (s.busRead off).port = s.port := rfl
@[simp] theorem State.busRead_connectTimeout (off : Half) : (s.busRead off).connectTimeout = s.connectTimeout := rfl
@[simp] theorem State.busRead_readTimeout (off : Half) : (s.busRead off).readTimeout = s.readTimeout := rfl
@[simp] theorem State.busRead_strLen (off : Half) : (s.busRead off).strLen = s.strLen := rfl
@[simp] theorem State.busRead_txBodyLen (off : Half) : (s.busRead off).txBodyLen = s.txBodyLen := rfl
@[simp] theorem State.busRead_txFrameLen (off : Half) : (s.busRead off).txFrameLen = s.txFrameLen := rfl
@[simp] theorem State.busRead_txSent (off : Half) : (s.busRead off).txSent = s.txSent := rfl
@[simp] theorem State.busRead_rxFrameLen (off : Half) : (s.busRead off).rxFrameLen = s.rxFrameLen := rfl
@[simp] theorem State.busRead_rxRcvd (off : Half) : (s.busRead off).rxRcvd = s.rxRcvd := rfl
@[simp] theorem State.busRead_rxCursor (off : Half) : (s.busRead off).rxCursor = s.rxCursor := rfl
@[simp] theorem State.busRead_spanOff (off : Half) : (s.busRead off).spanOff = s.spanOff := rfl
@[simp] theorem State.busRead_spanLen (off : Half) : (s.busRead off).spanLen = s.spanLen := rfl
@[simp] theorem State.busRead_timer (off : Half) : (s.busRead off).timer = s.timer := rfl
@[simp] theorem State.busRead_str (off : Half) : (s.busRead off).str = s.str := rfl
@[simp] theorem State.busRead_body (off : Half) : (s.busRead off).body = s.body := rfl
@[simp] theorem State.busRead_rx (off : Half) : (s.busRead off).rx = s.rx := rfl
@[simp] theorem State.busRead_pfx (off : Half) : (s.busRead off).pfx = s.pfx := rfl
@[simp] theorem State.busRead_plen (off : Half) : (s.busRead off).plen = s.plen := rfl
@[simp] theorem State.busRead_lacc (off : Half) : (s.busRead off).lacc = s.lacc := rfl
@[simp] theorem State.busRead_lcnt (off : Half) : (s.busRead off).lcnt = s.lcnt := rfl
@[simp] theorem State.busRead_trace (off : Half) : (s.busRead off).trace = s.trace := rfl
@[simp] theorem State.busRead_draws (off : Half) : (s.busRead off).draws = s.draws := rfl
@[simp] theorem State.busRead_inputs (off : Half) : (s.busRead off).inputs = s.inputs := rfl
@[simp] theorem State.busRead_reads (off : Half) : (s.busRead off).reads = s.reads ++ [s.readWord (wordOffset off)] := rfl

end Sys2Proof.Machine
end

