-- ==== Sys2Proof/Laws/Memory.lean ====
section
/-! SUPPORT. What reading and writing buffer bytes can do: a read after a write, the bytes a write leaves alone, and the
canonical form every write keeps. -/

namespace Sys2Proof.Machine

open Sys2Proof

/-! ### One byte -/

theorem Mem.lookup_insert (m : Mem) (a c : Nat) (b : Byte) :
    Mem.lookup (Mem.insert m a b) c = if c = a then some b else Mem.lookup m c := by
  induction m with
  | nil => simp [Mem.insert, Mem.lookup, eq_comm]
  | cons kb rest ih =>
    obtain ⟨k, d⟩ := kb
    rw [Mem.insert]
    by_cases h1 : a < k
    · rw [if_pos h1, Mem.lookup]
      simp only [eq_comm]
    · rw [if_neg h1]
      by_cases h2 : a = k
      · subst h2
        by_cases hc : c = a
        · simp [Mem.lookup, hc]
        · simp [Mem.lookup, hc, Ne.symm hc]
      · rw [if_neg h2, Mem.lookup, Mem.lookup, ih]
        by_cases hk : k = c
        · have : ¬ c = a := fun h => h2 (by rw [← h, hk])
          simp [hk, this]
        · simp [hk]

theorem Mem.lookup_write (size : Nat) (m : Mem) (a c : Nat) (b : Byte) (ha : a < size) :
    Mem.lookup (Mem.write size m a b) c = if c = a then some b else Mem.lookup m c := by
  simp [Mem.write, ha, Mem.lookup_insert m a c b]

theorem Mem.lookup_write_ne (size : Nat) (m : Mem) (a c : Nat) (b : Byte) (hc : c ≠ a) :
    Mem.lookup (Mem.write size m a b) c = Mem.lookup m c := by
  unfold Mem.write
  split_ifs
  · rw [Mem.lookup_insert m a c b, if_neg hc]
  · rfl

/-! ### A run of bytes -/

theorem Mem.lookup_writeRun_outside (size : Nat) (m : Mem) (a c : Nat) (bs : List Byte)
    (hc : c < a ∨ a + bs.length ≤ c) : Mem.lookup (Mem.writeRun size m a bs) c = Mem.lookup m c := by
  induction bs generalizing m a with
  | nil => rfl
  | cons b rest ih =>
    simp only [List.length_cons] at hc
    rw [Mem.writeRun, ih _ _ (by omega), Mem.lookup_write_ne _ _ _ _ _ (by omega)]

theorem Mem.lookup_writeRun_inside (size : Nat) (m : Mem) (a j : Nat) (bs : List Byte) (hj : j < bs.length)
    (hs : a + bs.length ≤ size) : Mem.lookup (Mem.writeRun size m a bs) (a + j) = some bs[j] := by
  induction bs generalizing m a j with
  | nil => simp at hj
  | cons b rest ih =>
    simp only [List.length_cons] at hj hs
    rw [Mem.writeRun]
    cases j with
    | zero =>
      rw [Mem.lookup_writeRun_outside _ _ _ _ _ (by omega), Mem.lookup_write _ _ _ _ _ (by omega)]
      simp
    | succ j =>
      have := ih (Mem.write size m a b) (a + 1) j (by omega) (by omega)
      rw [show a + (j + 1) = a + 1 + j by omega, this]
      simp

/-! ### The canonical form -/

theorem Mem.risingFrom_mono {size lo lo' : Nat} {m : Mem} (h : Mem.risingFrom size lo m = true) (hl : lo' ≤ lo) :
    Mem.risingFrom size lo' m = true := by
  cases m with
  | nil => rfl
  | cons kb rest =>
    obtain ⟨k, d⟩ := kb
    simp only [Mem.risingFrom, Bool.and_eq_true, decide_eq_true_eq] at h ⊢
    exact ⟨⟨by omega, h.1.2⟩, h.2⟩

theorem Mem.risingFrom_insert {size lo : Nat} {m : Mem} (a : Nat) (b : Byte) (h : Mem.risingFrom size lo m = true)
    (hlo : lo ≤ a) (ha : a < size) : Mem.risingFrom size lo (Mem.insert m a b) = true := by
  induction m generalizing lo with
  | nil => simp [Mem.insert, Mem.risingFrom, hlo, ha]
  | cons kb rest ih =>
    obtain ⟨k, d⟩ := kb
    simp only [Mem.risingFrom, Bool.and_eq_true, decide_eq_true_eq] at h
    unfold Mem.insert
    split_ifs with h1 h2
    · simp only [Mem.risingFrom, Bool.and_eq_true, decide_eq_true_eq]
      exact ⟨⟨hlo, ha⟩, ⟨by omega, h.1.2⟩, h.2⟩
    · subst h2
      simp only [Mem.risingFrom, Bool.and_eq_true, decide_eq_true_eq]
      exact ⟨⟨hlo, ha⟩, h.2⟩
    · simp only [Mem.risingFrom, Bool.and_eq_true, decide_eq_true_eq]
      exact ⟨h.1, ih h.2 (by omega)⟩

/-- Every write of a byte keeps the canonical form. -/
theorem Mem.wf_write {size : Nat} {m : Mem} (a : Nat) (b : Byte) (h : Mem.wf size m = true) :
    Mem.wf size (Mem.write size m a b) = true := by
  unfold Mem.write
  split_ifs with ha
  · exact Mem.risingFrom_insert a b h (Nat.zero_le _) ha
  · exact h

/-- Every write of a run of bytes keeps the canonical form. -/
theorem Mem.wf_writeRun {size : Nat} {m : Mem} (a : Nat) (bs : List Byte) (h : Mem.wf size m = true) :
    Mem.wf size (Mem.writeRun size m a bs) = true := by
  induction bs generalizing m a with
  | nil => exact h
  | cons b rest ih => exact ih _ (Mem.wf_write a b h)

/-- After reset every buffer has the canonical form. -/
theorem Mem.wf_reset (b : Config.Buffer) : Mem.wf (bufferSize b) (State.reset.buffer b) = true := by
  cases b <;> rfl

/-- A listed byte lies inside its buffer. -/
theorem Mem.lookup_none_of_size_le {size : Nat} {m : Mem} {a : Nat} (h : Mem.wf size m = true) (ha : size ≤ a) :
    Mem.lookup m a = none := by
  have key : ∀ lo (m : Mem), Mem.risingFrom size lo m = true → Mem.lookup m a = none := by
    intro lo m
    induction m generalizing lo with
    | nil => intro; rfl
    | cons kb rest ih =>
      obtain ⟨k, d⟩ := kb
      intro h
      simp only [Mem.risingFrom, Bool.and_eq_true, decide_eq_true_eq] at h
      have hk : k ≠ a := by omega
      simp only [Mem.lookup, hk, if_false]
      exact ih _ h.2
  exact key 0 m h

/-! ### The bytes of a state -/

/-- Every byte of a buffer whose memory and draw are the same reads the same. -/
theorem State.byteAt_congr {s t : State} {b : Config.Buffer} (hb : t.buffer b = s.buffer b) (hd : t.draws = s.draws)
    (i : Nat) : t.byteAt b i = s.byteAt b i := by
  simp [State.byteAt, hb, hd]

theorem State.bytesFrom_congr {s t : State} {b : Config.Buffer} (hb : t.buffer b = s.buffer b) (hd : t.draws = s.draws)
    (lo n : Nat) : t.bytesFrom b lo n = s.bytesFrom b lo n := by
  simp [State.bytesFrom, State.byteAt_congr hb hd]

@[simp] theorem State.length_bytesFrom (s : State) (b : Config.Buffer) (lo n : Nat) :
    (s.bytesFrom b lo n).length = n := by
  simp [State.bytesFrom]

theorem State.getElem_bytesFrom (s : State) (b : Config.Buffer) (lo n i : Nat) (h : i < (s.bytesFrom b lo n).length) :
    (s.bytesFrom b lo n)[i] = s.byteAt b (lo + i) := by
  simp [State.bytesFrom]

/-- The bytes of a buffer after a run was written at the end of a range: the old range, then the run. -/
theorem State.bytesFrom_append_run {s t : State} {b : Config.Buffer} {bs : List Byte} (lo n : Nat)
    (hin : ∀ (j : Nat) (h : j < bs.length), t.byteAt b (lo + n + j) = bs[j])
    (hout : ∀ i, i < n → t.byteAt b (lo + i) = s.byteAt b (lo + i)) :
    t.bytesFrom b lo (n + bs.length) = s.bytesFrom b lo n ++ bs := by
  apply List.ext_getElem
  · simp
  · intro i h1 h2
    rw [State.getElem_bytesFrom]
    by_cases hi : i < n
    · rw [List.getElem_append_left (by simpa using hi), State.getElem_bytesFrom, hout i hi]
    · rw [List.getElem_append_right (by simpa using hi)]
      simp only [State.length_bytesFrom] at h1 ⊢
      have := hin (i - n) (by omega)
      rw [show lo + i = lo + n + (i - n) by omega, this]

end Sys2Proof.Machine
end

