-- ==== Sys2Proof/Laws/Varint.lean ====
section
/-! SUPPORT. What `venc` and `vdec` (spec/41_varint.md R90, R91) do, said once: the shape and length of an encoding, the value
a decode accumulates, and the three ways a decode ends. -/

namespace Sys2Proof.Machine

open Sys2Proof

/-! ### Encoding -/

/-- One turn of the encoder's loop. -/
theorem vencLoop_succ (n : Nat) (v : Word) :
    vencLoop (n + 1) v =
      if v >>> 7 = 0 then [(v.extractLsb' 0 7).setWidth 8]
      else ((v.extractLsb' 0 7).setWidth 8 ||| 0x80) :: vencLoop n (v >>> 7) := by
  by_cases h : v >>> 7 = 0 <;> simp [vencLoop, h]

theorem shiftRight_seven_eq_zero_iff (v : Word) : v >>> 7 = 0 ↔ v.toNat < 2 ^ 7 := by
  rw [← BitVec.toNat_inj]
  simp [Nat.shiftRight_eq_div_pow]

theorem toNat_shiftRight_seven (v : Word) : (v >>> 7).toNat = v.toNat / 2 ^ 7 := by
  simp [Nat.shiftRight_eq_div_pow]

/-- Everything about the encoder's loop, for enough fuel: how many bytes it gives, and that each byte holds its seven value
bits and a continuation bit that is clear on the last byte alone. -/
theorem vencLoop_spec (n : Nat) (v : Word) (hn : 0 < n) (hv : v.toNat < 2 ^ (7 * n)) :
    (0 < (vencLoop n v).length ∧ (vencLoop n v).length ≤ n) ∧
    v.toNat < 2 ^ (7 * (vencLoop n v).length) ∧
    (1 < (vencLoop n v).length → 2 ^ (7 * ((vencLoop n v).length - 1)) ≤ v.toNat) ∧
    ∀ k, k < (vencLoop n v).length →
      (∀ j, j < 7 → ((vencLoop n v).getD k 0).getLsbD j = v.getLsbD (7 * k + j)) ∧
      ((vencLoop n v).getD k 0).getLsbD 7 = decide (k + 1 < (vencLoop n v).length) := by
  induction n generalizing v with
  | zero => omega
  | succ n ih =>
    rw [vencLoop_succ]
    by_cases h : v >>> 7 = 0
    · rw [if_pos h]
      rw [shiftRight_seven_eq_zero_iff] at h
      refine ⟨by simp, by simpa using h, by simp, ?_⟩
      intro k hk
      have hk0 : k = 0 := by simpa using hk
      subst hk0
      refine ⟨?_, by simp⟩
      intro j hj
      simp only [List.getD_cons_zero]
      simp [hj, show j < 8 by omega]
    · rw [if_neg h]
      rw [shiftRight_seven_eq_zero_iff] at h
      have hn' : 0 < n := by
        rcases Nat.eq_zero_or_pos n with h0 | h0
        · subst h0; simp at hv; omega
        · exact h0
      have hv' : (v >>> 7).toNat < 2 ^ (7 * n) := by
        rw [toNat_shiftRight_seven]
        rw [show 7 * (n + 1) = 7 + 7 * n by ring, Nat.pow_add] at hv
        exact Nat.div_lt_of_lt_mul hv
      obtain ⟨⟨h1, h2⟩, h3, h4, h5⟩ := ih (v >>> 7) hn' hv'
      set l := vencLoop n (v >>> 7) with hl
      rw [toNat_shiftRight_seven] at h3 h4
      refine ⟨by simp; omega, ?_, ?_, ?_⟩
      · simp only [List.length_cons]
        rw [show 7 * (l.length + 1) = 7 + 7 * l.length by ring, Nat.pow_add]
        exact (Nat.div_lt_iff_lt_mul (by norm_num)).1 h3 |>.trans_eq (by ring)
      · intro _
        simp only [List.length_cons, Nat.add_sub_cancel]
        by_cases hl1 : 1 < l.length
        · have := h4 hl1
          have h6 : 2 ^ (7 * (l.length - 1)) * 2 ^ 7 ≤ v.toNat :=
            (Nat.le_div_iff_mul_le (by norm_num)).1 this
          rw [← Nat.pow_add] at h6
          rwa [show 7 * (l.length - 1) + 7 = 7 * l.length by omega] at h6
        · have : l.length = 1 := by omega
          rw [this]; omega
      · intro k hk
        simp only [List.length_cons] at hk
        cases k with
        | zero =>
          refine ⟨?_, ?_⟩
          · intro j hj
            simp only [List.getD_cons_zero]
            have h0x80 : ((0x80 : Byte)).getLsbD j = false := by interval_cases j <;> rfl
            simp only [BitVec.getLsbD_or, h0x80, Bool.or_false]
            simp [hj, show j < 8 by omega]
          · simp only [List.getD_cons_zero, List.length_cons]
            have : ((0x80 : Byte)).getLsbD 7 = true := rfl
            simp only [BitVec.getLsbD_or, this, Bool.or_true]
            simp; omega
        | succ k =>
          obtain ⟨h7, h8⟩ := h5 k (by omega)
          refine ⟨?_, ?_⟩
          · intro j hj
            simp only [List.getD_cons_succ]
            rw [h7 j hj]
            simp only [BitVec.getLsbD_ushiftRight]
            congr 1
            omega
          · simp only [List.getD_cons_succ, List.length_cons]
            rw [h8]
            simp

/-- What `venc` gives (R90, 30_encoding.md R75), said once. -/
theorem venc_spec (v : Word) :
    (0 < (venc v).length ∧ (venc v).length ≤ 5) ∧
    v.toNat < 2 ^ (7 * (venc v).length) ∧
    (1 < (venc v).length → 2 ^ (7 * ((venc v).length - 1)) ≤ v.toNat) ∧
    ∀ k, k < (venc v).length →
      (∀ j, j < 7 → ((venc v).getD k 0).getLsbD j = v.getLsbD (7 * k + j)) ∧
      ((venc v).getD k 0).getLsbD 7 = decide (k + 1 < (venc v).length) :=
  vencLoop_spec 5 v (by norm_num) (by have := v.isLt; omega)

theorem venc_length_pos (v : Word) : 0 < (venc v).length := (venc_spec v).1.1

theorem venc_length_le (v : Word) : (venc v).length ≤ 5 := (venc_spec v).1.2

/-- A value below 128^n takes at most n bytes. -/
theorem venc_length_le_of_lt (v : Word) (n : Nat) (hn : 0 < n) (h : v.toNat < 2 ^ (7 * n)) : (venc v).length ≤ n := by
  obtain ⟨⟨h1, -⟩, -, h3, -⟩ := venc_spec v
  by_contra hlt
  have h4 := h3 (by omega)
  have : 2 ^ (7 * n) ≤ 2 ^ (7 * ((venc v).length - 1)) := Nat.pow_le_pow_right (by norm_num) (by omega)
  omega

/-- A value of at least 128^n takes more than n bytes. -/
theorem lt_venc_length_of_le (v : Word) (n : Nat) (h : 2 ^ (7 * n) ≤ v.toNat) : n < (venc v).length := by
  obtain ⟨-, h2, -, -⟩ := venc_spec v
  by_contra hle
  have : 2 ^ (7 * (venc v).length) ≤ 2 ^ (7 * n) := Nat.pow_le_pow_right (by norm_num) (by omega)
  omega

/-! ### Decoding -/

/-- The accumulator after the bytes `f 0 .. f (n-1)` (R91). -/
def accumulateBytes (f : Nat → Byte) (n : Nat) : Word :=
  match n with
  | 0 => 0
  | k + 1 => vdecAccumulate (accumulateBytes f k) k (f k)

theorem vdecAccumulate_getLsbD (acc : Word) (k m : Nat) (b : Byte) (hk : k < 5) (hm : m < 32) :
    (vdecAccumulate acc k b).getLsbD m =
      (acc.getLsbD m || (decide (7 * k ≤ m) && decide (m < 7 * k + 7) && b.getLsbD (m - 7 * k))) := by
  unfold vdecAccumulate
  split_ifs with h
  · simp only [BitVec.getLsbD_or, BitVec.getLsbD_shiftLeft, BitVec.getLsbD_setWidth, BitVec.getLsbD_extractLsb', hm,
      decide_true, Bool.true_and, Nat.zero_add]
    by_cases h1 : m < 7 * k
    · simp [h1]
    · by_cases h2 : m < 7 * k + 7
      · simp [h1, h2, show m - 7 * k < 32 by omega, show m - 7 * k < 7 by omega, show 7 * k ≤ m by omega]
      · simp [h1, h2]; omega
  · obtain rfl : k = 4 := by omega
    simp only [BitVec.getLsbD_or, BitVec.getLsbD_shiftLeft, BitVec.getLsbD_setWidth, BitVec.getLsbD_extractLsb', hm,
      decide_true, Bool.true_and, Nat.zero_add]
    by_cases h1 : m < 28
    · simp [h1]
    · simp [h1, show m - 28 < 32 by omega, show m - 28 < 4 by omega, show 28 ≤ m by omega, show m < 35 by omega]

/-- Bit m of the accumulated value is bit `m % 7` of byte `m / 7` (30_encoding.md R75, 20_memory.md R64). -/
theorem accumulateBytes_getLsbD (f : Nat → Byte) (n m : Nat) (hn : n ≤ 5) (hm : m < 32) :
    (accumulateBytes f n).getLsbD m = (decide (m / 7 < n) && (f (m / 7)).getLsbD (m % 7)) := by
  induction n with
  | zero => simp [accumulateBytes]
  | succ k ih =>
    rw [accumulateBytes, vdecAccumulate_getLsbD _ _ _ _ (by omega) hm, ih (by omega)]
    rcases lt_trichotomy (m / 7) k with h | h | h
    · have h1 : ¬ 7 * k ≤ m := by omega
      simp [h, h1, show m / 7 < k + 1 by omega]
    · have h1 : 7 * k ≤ m := by omega
      have h2 : m < 7 * k + 7 := by omega
      have h3 : m - 7 * k = m % 7 := by omega
      simp [h, h1, h2, h3]
    · have h2 : ¬ m < 7 * k + 7 := by omega
      simp [show ¬ m / 7 < k by omega, show ¬ m / 7 < k + 1 by omega, h2]

theorem accumulateBytes_congr {f g : Nat → Byte} {n : Nat} (h : ∀ j, j < n → f j = g j) :
    accumulateBytes f n = accumulateBytes g n := by
  induction n with
  | zero => rfl
  | succ k ih => rw [accumulateBytes, accumulateBytes, ih (fun j hj => h j (by omega)), h k (by omega)]

/-- After n pulled bytes that all continue, the decode stands at byte n. -/
theorem vdec_prefix (pull : Nat → Except ErrCause Byte) (f : Nat → Byte) (n : Nat) (hn : n ≤ 5)
    (h : ∀ j, j < n → pull j = .ok (f j) ∧ continues (f j) = true) :
    vdec pull = vdecLoop pull (5 - n) n (accumulateBytes f n) := by
  induction n with
  | zero => rfl
  | succ k ih =>
    rw [ih (by omega) (fun j hj => h j (by omega))]
    obtain ⟨h1, h2⟩ := h k (by omega)
    rw [show 5 - k = (5 - (k + 1)) + 1 by omega, vdecLoop, h1]
    simp [h2, accumulateBytes]

/-- A decode that meets its terminating byte at position n. -/
theorem vdec_terminates (pull : Nat → Except ErrCause Byte) (f : Nat → Byte) (n : Nat) (hn : n < 5)
    (h : ∀ j, j < n → pull j = .ok (f j) ∧ continues (f j) = true) (hp : pull n = .ok (f n))
    (hc : continues (f n) = false) : vdec pull = .ok (accumulateBytes f (n + 1), n + 1) := by
  rw [vdec_prefix pull f n (by omega) h, show 5 - n = (4 - n) + 1 by omega, vdecLoop, hp]
  simp [hc, accumulateBytes]

/-- A decode whose source fails before a terminating byte reports the source's error (R91 "Source order"). -/
theorem vdec_source_error (pull : Nat → Except ErrCause Byte) (f : Nat → Byte) (n : Nat) (e : ErrCause) (hn : n < 5)
    (h : ∀ j, j < n → pull j = .ok (f j) ∧ continues (f j) = true) (hp : pull n = .error e) :
    vdec pull = .error e := by
  rw [vdec_prefix pull f n (by omega) h, show 5 - n = (4 - n) + 1 by omega, vdecLoop, hp]

/-- Five bytes that all continue are OVERLONG_VARINT (R91). -/
theorem vdec_overlong (pull : Nat → Except ErrCause Byte) (f : Nat → Byte)
    (h : ∀ j, j < 5 → pull j = .ok (f j) ∧ continues (f j) = true) : vdec pull = .error .overlongVarint := by
  rw [vdec_prefix pull f 5 (by omega) h]; rfl

/-- The three ways a decode ends (R91), for every source. -/
theorem vdec_cases (pull : Nat → Except ErrCause Byte) :
    ∃ f : Nat → Byte,
      (∃ n, n < 5 ∧ (∀ j, j < n → pull j = .ok (f j) ∧ continues (f j) = true) ∧ pull n = .ok (f n) ∧
        continues (f n) = false ∧ vdec pull = .ok (accumulateBytes f (n + 1), n + 1)) ∨
      (∃ n e, n < 5 ∧ (∀ j, j < n → pull j = .ok (f j) ∧ continues (f j) = true) ∧ pull n = .error e ∧
        vdec pull = .error e) ∨
      ((∀ j, j < 5 → pull j = .ok (f j) ∧ continues (f j) = true) ∧ vdec pull = .error .overlongVarint) := by
  let f : Nat → Byte := fun j => match pull j with | .ok b => b | .error _ => 0
  refine ⟨f, ?_⟩
  by_cases hall : ∀ j, j < 5 → pull j = .ok (f j) ∧ continues (f j) = true
  · exact .inr (.inr ⟨hall, vdec_overlong pull f hall⟩)
  · have hex : ∃ j, j < 5 ∧ ¬ (pull j = .ok (f j) ∧ continues (f j) = true) := by
      by_contra hne
      exact hall fun j hj => by_contra fun hj' => hne ⟨j, hj, hj'⟩
    obtain ⟨hn, hbad⟩ := Nat.find_spec hex
    have hpre : ∀ j, j < Nat.find hex → pull j = .ok (f j) ∧ continues (f j) = true := fun j hj => by
      by_contra hj'
      exact Nat.find_min hex hj ⟨by omega, hj'⟩
    cases hp : pull (Nat.find hex) with
    | error e => exact .inr (.inl ⟨_, e, hn, hpre, hp, vdec_source_error pull f _ e hn hpre hp⟩)
    | ok b =>
      have hb : f (Nat.find hex) = b := by simp only [f, hp]
      have hc : continues (f (Nat.find hex)) = false := by
        rcases Bool.eq_false_or_eq_true (continues (f (Nat.find hex))) with h | h
        · exact absurd ⟨by rw [hp, hb], h⟩ hbad
        · exact h
      refine .inl ⟨_, hn, hpre, by rw [hp, hb], hc, ?_⟩
      exact vdec_terminates pull f _ hn hpre (by rw [hp, hb]) hc

/-- A successful decode pulled one to five bytes. -/
theorem vdec_ok_length {pull : Nat → Except ErrCause Byte} {v : Word} {n : Nat} (h : vdec pull = .ok (v, n)) :
    0 < n ∧ n ≤ 5 := by
  obtain ⟨f, ⟨m, hm, -, -, -, heq⟩ | ⟨m, e, -, -, -, heq⟩ | ⟨-, heq⟩⟩ := vdec_cases pull <;> rw [heq] at h
  · obtain ⟨-, rfl⟩ := by simpa using h
    omega
  · simp at h
  · simp at h

/-- A successful decode of n bytes had its last pull, number n-1, answered. -/
theorem vdec_ok_last {pull : Nat → Except ErrCause Byte} {v : Word} {n : Nat} (h : vdec pull = .ok (v, n)) :
    ∃ b, pull (n - 1) = .ok b := by
  obtain ⟨f, ⟨m, hm, -, hp, -, heq⟩ | ⟨m, e, -, -, -, heq⟩ | ⟨-, heq⟩⟩ := vdec_cases pull <;> rw [heq] at h
  · obtain ⟨-, rfl⟩ := by simpa using h
    exact ⟨_, hp⟩
  · simp at h
  · simp at h

/-- A decode depends on nothing but what the source answers to its first five pulls. -/
theorem vdec_congr {pull pull' : Nat → Except ErrCause Byte} (h : ∀ k, k < 5 → pull k = pull' k) :
    vdec pull = vdec pull' := by
  simp only [vdec, vdecLoop, h 0 (by omega), h 1 (by omega), h 2 (by omega), h 3 (by omega), h 4 (by omega)]

/-! ### The two together -/

/-- Accumulating the bytes of an encoding gives the value back (41_varint.md R94). -/
theorem accumulateBytes_venc (v : Word) : accumulateBytes (fun k => (venc v).getD k 0) (venc v).length = v := by
  obtain ⟨⟨-, h1⟩, h2, -, h4⟩ := venc_spec v
  apply BitVec.eq_of_getLsbD_eq
  intro m hm
  rw [accumulateBytes_getLsbD _ _ _ h1 hm]
  by_cases h : m / 7 < (venc v).length
  · rw [(h4 _ h).1 (m % 7) (Nat.mod_lt _ (by norm_num)), Nat.div_add_mod]
    simp [h]
  · simp only [h, decide_false, Bool.false_and]
    symm
    rw [← BitVec.testBit_toNat]
    exact Nat.testBit_lt_two_pow (lt_of_lt_of_le h2 (Nat.pow_le_pow_right (by norm_num) (by omega)))

end Sys2Proof.Machine
end

