-- ==== Sys2Proof/Laws/Builder.lean ====
section
/-! SUPPORT. What the frame_builder's shared operations do, said once: append, finish, and the frame a finished builder shows
(spec/42_frame_builder.md R100, R107, R108). -/

namespace Sys2Proof.Machine

open Sys2Proof

/-- append either fails for want of room or gives `appended` (R100). -/
theorem State.append_eq (s : State) (bs : List Byte) :
    s.append bs = if s.txBodyLen.toNat + bs.length > 1022 then .error .txBodyFull else .ok (s.appended bs) := rfl

theorem State.append_of_fits {s : State} {bs : List Byte} (h : s.txBodyLen.toNat + bs.length ≤ 1022) :
    s.append bs = .ok (s.appended bs) := by
  rw [State.append_eq, if_neg (by omega)]

theorem State.append_of_full {s : State} {bs : List Byte} (h : 1022 < s.txBodyLen.toNat + bs.length) :
    s.append bs = .error .txBodyFull := by
  rw [State.append_eq, if_pos h]

theorem State.toNat_appended_txBodyLen {s : State} {bs : List Byte} (h : s.txBodyLen.toNat + bs.length ≤ 1022) :
    (s.appended bs).txBodyLen.toNat = s.txBodyLen.toNat + bs.length := by
  simp; omega

theorem State.byteAt_appended_inside {s : State} {bs : List Byte} (h : s.txBodyLen.toNat + bs.length ≤ 1022) (j : Nat)
    (hj : j < bs.length) : (s.appended bs).byteAt .body (s.txBodyLen.toNat + j) = bs[j] := by
  have := Mem.lookup_writeRun_inside (bufferSize .body) s.body s.txBodyLen.toNat j bs hj h
  simp [State.byteAt, State.buffer, this]

theorem State.byteAt_appended_outside (s : State) (bs : List Byte) (i : Nat)
    (hi : i < s.txBodyLen.toNat ∨ s.txBodyLen.toNat + bs.length ≤ i) :
    (s.appended bs).byteAt .body i = s.byteAt .body i := by
  have := Mem.lookup_writeRun_outside (bufferSize .body) s.body s.txBodyLen.toNat i bs hi
  simp [State.byteAt, State.buffer, this]

theorem State.bodyBytes_appended {s : State} {bs : List Byte} (h : s.txBodyLen.toNat + bs.length ≤ 1022) :
    (s.appended bs).bodyBytes = s.bodyBytes ++ bs := by
  unfold State.bodyBytes
  rw [State.toNat_appended_txBodyLen h]
  refine State.bytesFrom_append_run 0 _ (fun j hj => ?_) (fun i hi => ?_)
  · rw [Nat.zero_add]; exact State.byteAt_appended_inside h j hj
  · rw [Nat.zero_add]; exact State.byteAt_appended_outside s bs i (.inl hi)

theorem State.byteAt_str_appended (s : State) (bs : List Byte) (i : Nat) :
    (s.appended bs).byteAt .str i = s.byteAt .str i := rfl

theorem State.byteAt_rx_appended (s : State) (bs : List Byte) (i : Nat) :
    (s.appended bs).byteAt .rx i = s.byteAt .rx i := rfl

theorem State.strBytes_appended (s : State) (bs : List Byte) : (s.appended bs).strBytes = s.strBytes := rfl

theorem State.bodyBytes_builderReset (s : State) : s.builderReset.bodyBytes = [] := rfl

/-- STR as an operand answers the run exactly where STR_LEN is legal (R32). -/
theorem State.strRun_eq (s : State) :
    s.strRun = if s.strLen.toNat > 256 then .error .strTooLong else .ok s.strBytes := rfl

/-! ### The finished frame -/

theorem toNat_setWidth_txBodyLen (n : BitVec 10) : (n.setWidth 32).toNat = n.toNat := by
  have := n.isLt
  simp; omega

theorem venc_bodyLen_length_le (n : BitVec 10) : (venc (n.setWidth 32)).length ≤ 2 := by
  apply venc_length_le_of_lt _ 2 (by norm_num)
  rw [toNat_setWidth_txBodyLen]
  have := n.isLt
  omega

theorem State.toNat_finish_plen (s : State) :
    s.finish.plen.toNat = (venc (s.txBodyLen.setWidth 32)).length := by
  have := venc_length_le (s.txBodyLen.setWidth 32)
  simp; omega

theorem State.toNat_finish_txFrameLen (s : State) :
    s.finish.txFrameLen.toNat = (venc (s.txBodyLen.setWidth 32)).length + s.txBodyLen.toNat := by
  have := venc_length_le (s.txBodyLen.setWidth 32)
  have := s.txBodyLen.isLt
  simp; omega

theorem State.finish_pfx_take (s : State) :
    s.finish.pfx.take s.finish.plen.toNat = venc (s.txBodyLen.setWidth 32) := by
  rw [State.toNat_finish_plen]; simp

/-- The frame a state shows is its prefix and its body (R108), wherever TX_FRAME_LEN is their length. -/
theorem State.frameBytes_eq {s : State} (hp : s.plen.toNat ≤ s.pfx.length)
    (h : s.txFrameLen.toNat = s.plen.toNat + s.txBodyLen.toNat) :
    s.frameBytes = s.pfx.take s.plen.toNat ++ s.bodyBytes := by
  apply List.ext_getElem
  · simp [State.frameBytes, State.bodyBytes, h, hp]
  · intro i h1 h2
    simp only [State.frameBytes, List.getElem_map, List.getElem_range]
    unfold State.frameByte
    split_ifs with hi
    · rw [List.getElem_append_left (by simp; omega)]
      simp [List.getD_eq_getElem?_getD, show i < s.pfx.length by omega]
    · rw [List.getElem_append_right (by simp; omega)]
      simp only [State.bodyBytes, State.getElem_bytesFrom, List.length_take, Nat.zero_add]
      congr 1
      omega

theorem State.frameBytes_finish (s : State) :
    s.finish.frameBytes = venc (s.txBodyLen.setWidth 32) ++ s.bodyBytes := by
  have hl : s.finish.plen.toNat ≤ s.finish.pfx.length := by
    rw [State.toNat_finish_plen]; simp
  rw [State.frameBytes_eq hl (by rw [State.toNat_finish_txFrameLen, State.toNat_finish_plen]; rfl), State.finish_pfx_take]
  rfl

end Sys2Proof.Machine
end

