-- ==== Sys2Proof/Laws/Parser.lean ====
section
/-! SUPPORT. What the reader's operations and the response parse do, said once: if they answer a state, what it is
(spec/43_frame_parser.md R120 to R125, R130). -/

namespace Sys2Proof.Machine

open Sys2Proof

/-- The value of a varint that bytes hold is what a decode accumulates from them (R91). -/
theorem holdsVarint_accumulateBytes {f : Nat → Byte} {n : Nat} {v : Word} (h : HoldsVarint f n v) :
    accumulateBytes f (n + 1) = v := by
  obtain ⟨h1, -, -, h4⟩ := h
  apply BitVec.eq_of_getLsbD_eq
  intro m hm
  rw [h4 m hm, accumulateBytes_getLsbD f (n + 1) m (by omega) hm]
  congr 1
  simp

theorem State.readerSource_of_lt {s : State} {k : Nat} (h : s.rxCursor.toNat + k < s.rxFrameLen.toNat) :
    s.readerSource k = .ok (s.byteAt .rx (s.rxCursor.toNat + k)) := by
  simp [State.readerSource, h]

theorem State.readerSource_of_ge {s : State} {k : Nat} (h : s.rxFrameLen.toNat ≤ s.rxCursor.toNat + k) :
    s.readerSource k = .error .readPastEnd := by
  simp [State.readerSource, h]

theorem State.readerSource_ok {s : State} {k : Nat} {b : Byte} (h : s.readerSource k = .ok b) :
    s.rxCursor.toNat + k < s.rxFrameLen.toNat := by
  by_contra hge
  rw [State.readerSource_of_ge (by omega)] at h
  simp at h

/-- A varint read that succeeds (R124): RESULT and RX_CURSOR are written, one to five bytes further on, inside the reader. -/
theorem State.readVarint_ok {s t : State} (h : s.readVarint = .ok t) :
    ∃ (v : Word) (k : Nat), vdec s.readerSource = .ok (v, k) ∧ 0 < k ∧ k ≤ 5 ∧
      s.rxCursor.toNat + k ≤ s.rxFrameLen.toNat ∧
      t = { s with result := v, rxCursor := BitVec.ofNat 16 (s.rxCursor.toNat + k) } ∧
      t.rxCursor.toNat = s.rxCursor.toNat + k := by
  unfold State.readVarint at h
  cases hv : vdec s.readerSource with
  | error e => simp [hv] at h
  | ok p =>
    obtain ⟨v, k⟩ := p
    rw [hv] at h
    simp only [Except.ok.injEq] at h
    obtain ⟨h1, h2⟩ := vdec_ok_length hv
    obtain ⟨b, hb⟩ := vdec_ok_last hv
    have h3 := State.readerSource_ok hb
    have h4 := s.rxFrameLen.isLt
    refine ⟨v, k, rfl, h1, h2, by omega, h.symm, ?_⟩
    subst h
    simp; omega

/-- A varint read that fails gives the decode's error. -/
theorem State.readVarint_error {s : State} {e : ErrCause} (h : s.readVarint = .error e) :
    vdec s.readerSource = .error e := by
  unfold State.readVarint at h
  cases hv : vdec s.readerSource with
  | error e' => simpa [hv] using h
  | ok p => simp [hv] at h

theorem State.readVarint_of_vdec {s : State} {v : Word} {k : Nat} (h : vdec s.readerSource = .ok (v, k)) :
    s.readVarint = .ok { s with result := v, rxCursor := BitVec.ofNat 16 (s.rxCursor.toNat + k) } := by
  simp [State.readVarint, h]

theorem State.readVarint_of_vdec_error {s : State} {e : ErrCause} (h : vdec s.readerSource = .error e) :
    s.readVarint = .error e := by
  simp [State.readVarint, h]

/-- A span read either fails as READ_PAST_END or takes bytes that remain (R123, R125). -/
theorem State.readSpan_eq (s : State) (n : Nat) :
    s.readSpan n = if n > s.rxFrameLen.toNat - s.rxCursor.toNat then .error .readPastEnd
      else .ok { s with spanOff := s.rxCursor, spanLen := BitVec.ofNat 16 n,
                        rxCursor := BitVec.ofNat 16 (s.rxCursor.toNat + n) } := rfl

theorem State.readSpan_ok {s t : State} {n : Nat} (h : s.readSpan n = .ok t) (hc : s.rxCursor.toNat ≤ s.rxFrameLen.toNat) :
    s.rxCursor.toNat + n ≤ s.rxFrameLen.toNat ∧
    t = { s with spanOff := s.rxCursor, spanLen := BitVec.ofNat 16 n,
                 rxCursor := BitVec.ofNat 16 (s.rxCursor.toNat + n) } ∧
    t.spanLen.toNat = n ∧ t.rxCursor.toNat = s.rxCursor.toNat + n := by
  rw [State.readSpan_eq] at h
  split_ifs at h with hn
  simp only [Except.ok.injEq] at h
  have := s.rxFrameLen.isLt
  subst h
  refine ⟨by omega, rfl, ?_, ?_⟩ <;> simp <;> omega

/-- How a response parse ends (R130): in the failure entry, the cursor inside the reader, or in success with a span inside it.
Only RESULT, RX_CURSOR, SPAN and what `fail` or `success` writes can differ. -/
theorem State.complete_cases (s : State) :
    (∃ (r : Word) (c : Half) (e : ErrCause), c.toNat ≤ s.rxFrameLen.toNat ∧
      s.complete = State.fail { s with result := r, rxCursor := c } e) ∨
    (∃ (r : Word) (c o l : Half), c.toNat ≤ s.rxFrameLen.toNat ∧ o.toNat + l.toNat ≤ s.rxFrameLen.toNat ∧
      s.complete = State.success { s with result := r, rxCursor := c, spanOff := o, spanLen := l }) := by
  unfold State.complete
  simp only
  cases h1 : State.readVarint { s with rxCursor := 0 } with
  | error e => exact .inl ⟨s.result, 0, e, by simp, rfl⟩
  | ok s1 =>
    obtain ⟨v, k, -, -, -, hk, rfl, hc1⟩ := State.readVarint_ok h1
    simp only at hk hc1 ⊢
    by_cases hv : v = 0
    · simp only [hv, ne_eq, not_true_eq_false, if_false]
      subst hv
      cases h2 : State.readVarint { s with result := 0, rxCursor := BitVec.ofNat 16 (BitVec.toNat (0 : Half) + k) } with
      | error e => exact .inl ⟨0, _, e, by rw [hc1]; exact hk, rfl⟩
      | ok s2 =>
        obtain ⟨v2, k2, -, -, -, hk2, rfl, hc2⟩ := State.readVarint_ok h2
        simp only at hk2 hc2 ⊢
        split
        · exact .inl ⟨v2, _, _, by rw [hc2]; exact hk2, rfl⟩
        · rename_i s3 h3
          obtain ⟨hb, rfl, hl, hc3⟩ := State.readSpan_ok h3 (by simp only; rw [hc2]; exact hk2)
          simp only at hb hl hc3
          refine .inr ⟨v2, _, _, _, ?_, ?_, rfl⟩
          · rw [hc3]; exact hb
          · rw [hl]; exact hb
    · simp only [ne_eq, hv, not_false_eq_true, if_true]
      exact .inl ⟨v, _, _, by rw [hc1]; exact hk, rfl⟩

/-- A varint that the reader's bytes hold is what a varint read at the cursor decodes (R124). -/
theorem State.vdec_of_holdsVarint {s : State} {n : Nat} {v : Word}
    (h : HoldsVarint (fun j => s.byteAt .rx (s.rxCursor.toNat + j)) n v)
    (hl : s.rxCursor.toNat + n < s.rxFrameLen.toNat) : vdec s.readerSource = .ok (v, n + 1) := by
  rw [← holdsVarint_accumulateBytes h]
  exact vdec_terminates _ (fun j => s.byteAt .rx (s.rxCursor.toNat + j)) n h.1
    (fun j hj => ⟨State.readerSource_of_lt (by omega), h.2.1 j hj⟩) (State.readerSource_of_lt hl) h.2.2.1

/-- What a varint read decodes, the bytes at the cursor hold (R124). -/
theorem State.holdsVarint_of_vdec {s : State} {k : Nat} {v : Word} (h : vdec s.readerSource = .ok (v, k)) :
    ∃ n, k = n + 1 ∧ s.rxCursor.toNat + n < s.rxFrameLen.toNat ∧
      HoldsVarint (fun j => s.byteAt .rx (s.rxCursor.toNat + j)) n v := by
  obtain ⟨f, ⟨n, hn, hj, hp, hc, heq⟩ | ⟨n, e, -, -, -, heq⟩ | ⟨-, heq⟩⟩ := vdec_cases s.readerSource <;> rw [heq] at h
  · simp only [Except.ok.injEq, Prod.mk.injEq] at h
    obtain ⟨rfl, rfl⟩ := h
    have hb : ∀ j, j ≤ n → f j = s.byteAt .rx (s.rxCursor.toNat + j) := fun j hjn => by
      have hok : s.readerSource j = .ok (f j) := by
        rcases Nat.lt_or_eq_of_le hjn with h | rfl
        · exact (hj j h).1
        · exact hp
      rw [State.readerSource_of_lt (State.readerSource_ok hok)] at hok
      exact (Except.ok.inj hok).symm
    refine ⟨n, rfl, State.readerSource_ok hp, hn, fun j hjn => ?_, ?_, fun m hm => ?_⟩
    · simp only [← hb j (by omega)]; exact (hj j hjn).2
    · simp only [← hb n (by omega)]; exact hc
    · rw [accumulateBytes_getLsbD f (n + 1) m (by omega) hm]
      by_cases hmn : m / 7 ≤ n
      · rw [hb _ hmn]; simp [hmn, Nat.lt_succ_of_le hmn]
      · simp [hmn, show ¬ m / 7 < n + 1 by omega]
  · simp at h
  · simp at h

/-- A response parse succeeds exactly where the bytes of RX hold a response (R130). -/
theorem State.complete_parses_iff (s : State) :
    s.complete.fsm = .responseReceived ↔ ResponseParses (s.byteAt .rx) s.rxFrameLen.toNat := by
  constructor
  · intro h
    unfold State.complete at h
    simp only at h
    cases h1 : State.readVarint { s with rxCursor := 0 } with
    | error e => rw [h1] at h; cases h
    | ok s1 =>
      obtain ⟨v, k, hv, -, -, -, rfl, hc1⟩ := State.readVarint_ok h1
      obtain ⟨n, rfl, -, hp⟩ := State.holdsVarint_of_vdec hv
      rw [h1] at h
      simp only [ne_eq] at h hc1
      by_cases hv0 : v = 0
      · rw [if_neg (not_not.2 hv0)] at h
        split at h
        · cases h
        · rename_i s2 h2
          obtain ⟨v2, k2, hv2, -, -, hk2, rfl, hc2⟩ := State.readVarint_ok h2
          obtain ⟨m, rfl, -, hq⟩ := State.holdsVarint_of_vdec hv2
          split at h
          · cases h
          · rename_i s3 h3
            obtain ⟨hb, -, -, -⟩ := State.readSpan_ok h3 (by rw [hc2]; exact hk2)
            rw [hc2] at hb
            simp only [hc1] at hb hq
            refine ⟨n, m, v2, ?_, ?_, ?_⟩
            · have hp' : HoldsVarint (fun j => s.byteAt .rx (0 + j)) n v := hp
              simpa only [Nat.zero_add, hv0] using hp'
            · have hq' : HoldsVarint (fun j => s.byteAt .rx (0 + (n + 1) + j)) m v2 := hq
              simpa only [Nat.zero_add] using hq'
            · have : BitVec.toNat (0 : Half) = 0 := rfl
              simp only [this] at hb; omega
      · rw [if_pos hv0] at h; cases h
  · rintro ⟨n, m, v, hp, hq, hl⟩
    have hL := s.rxFrameLen.isLt
    have e1 : State.readVarint { s with rxCursor := 0 } =
        .ok { s with result := 0, rxCursor := BitVec.ofNat 16 (n + 1) } := by
      rw [State.readVarint_of_vdec (v := 0) (k := n + 1) (State.vdec_of_holdsVarint ?_ ?_)]
      · simp
      · show HoldsVarint (fun j => s.byteAt .rx (0 + j)) n 0
        simpa only [Nat.zero_add] using hp
      · simp; omega
    have hc1 : (BitVec.ofNat 16 (n + 1)).toNat = n + 1 := by simp; omega
    have e2 : State.readVarint { s with result := 0, rxCursor := BitVec.ofNat 16 (n + 1) } =
        .ok { s with result := v, rxCursor := BitVec.ofNat 16 (n + 1 + (m + 1)) } := by
      rw [State.readVarint_of_vdec (v := v) (k := m + 1) (State.vdec_of_holdsVarint ?_ ?_)]
      · simp only [hc1]
      · simp only [hc1]; exact hq
      · simp only [hc1]; omega
    have hc2 : (BitVec.ofNat 16 (n + 1 + (m + 1))).toNat = n + 1 + (m + 1) := by simp; omega
    unfold State.complete
    simp only [e1, ne_eq, not_true_eq_false, if_false, e2]
    rw [State.readSpan_eq, if_neg (by simp only [hc2]; omega)]
    rfl

end Sys2Proof.Machine
end

