-- ==== Sys2Proof/Laws/Handshake.lean ====
section
/-! SUPPORT. What the frames of a run and the event effects do, said once (spec/44_handshake_fsm.md R143 to R151). -/

namespace Sys2Proof.Machine

open Sys2Proof

theorem toNat_setWidth_strLen (n : BitVec 9) : (n.setWidth 32).toNat = n.toNat := by
  have := n.isLt
  simp; omega

theorem venc_strLen_length_le (n : BitVec 9) : (venc (n.setWidth 32)).length ≤ 2 := by
  apply venc_length_le_of_lt _ 2 (by norm_num)
  rw [toNat_setWidth_strLen]
  have := n.isLt
  omega

@[simp] theorem venc_zero : venc 0#32 = [0#8] := by decide

@[simp] theorem venc_one : venc 1#32 = [1#8] := by decide

theorem length_venc_zero : (venc 0).length = 1 := by decide

theorem length_venc_one : (venc 1).length = 1 := by decide

/-- A sequence of fallible builder steps that answers has answered at each of them. -/
theorem bind_ok {x : Except ErrCause State} {f : State → Except ErrCause State} {t : State} (h : x >>= f = .ok t) :
    ∃ a, x = .ok a ∧ f a = .ok t := by
  cases x with
  | error e => cases h
  | ok a => exact ⟨a, rfl, h⟩

/-- `t` is `s` but for the frame_builder's state (42_frame_builder.md, head of the file). -/
def BuilderOnly (s t : State) : Prop :=
  t = { s with body := t.body, txBodyLen := t.txBodyLen, pfx := t.pfx, plen := t.plen, txFrameLen := t.txFrameLen,
               frameValid := t.frameValid }

theorem BuilderOnly.trans {s t u : State} (h1 : BuilderOnly s t) (h2 : BuilderOnly t u) : BuilderOnly s u := by
  cases s; cases t; cases u
  simp only [BuilderOnly, State.mk.injEq, true_and] at *
  simp_all

theorem builderOnly_append {s t : State} {bs : List Byte} (h : s.append bs = .ok t) : BuilderOnly s t := by
  rw [State.append_eq] at h
  split_ifs at h
  cases h
  rfl

theorem builderOnly_appendString {s t : State} (h : s.appendString = .ok t) : BuilderOnly s t := by
  unfold State.appendString at h
  split at h
  · cases h
  · exact builderOnly_append h

@[simp] theorem State.length_strBytes (s : State) : s.strBytes.length = s.strLen.toNat := by simp [State.strBytes]

@[simp] theorem length_u16be (v : Half) : (u16be v).length = 2 := rfl

/-- The body of the Handshake packet a state's registers stand for (30_encoding.md R77). -/
def State.handshakeBody (s : State) : List Byte :=
  venc 0 ++ venc s.protoVer ++ (venc (s.strLen.setWidth 32) ++ s.strBytes) ++ u16be s.port ++ venc 1

theorem State.length_handshakeBody_le (s : State) (h : s.strLen.toNat ≤ 256) : s.handshakeBody.length ≤ 267 := by
  have h1 := venc_length_le s.protoVer
  have h2 := venc_strLen_length_le s.strLen
  simp only [State.handshakeBody, length_venc_zero, length_venc_one, List.length_append, State.length_strBytes,
    length_u16be]
  omega

/-- The builder after the five appends of BuildHandshake (R110), before FB_FINISH. -/
def State.handshakeAppended (s : State) : State :=
  ((((s.builderReset.appended (venc 0)).appended (venc s.protoVer)).appended
    (venc (s.strLen.setWidth 32) ++ s.strBytes)).appended (u16be s.port)).appended (venc 1)

/-- BuildHandshake cannot fail where STR_LEN is legal (R110), and its body is the Handshake packet's. -/
theorem State.buildHandshake_of_strLen (s : State) (h : s.strLen.toNat ≤ 256) :
    s.buildHandshake = .ok s.handshakeAppended.finish ∧
      s.handshakeAppended.bodyBytes = s.handshakeBody ∧
      s.handshakeAppended.txBodyLen.toNat = s.handshakeBody.length := by
  have h1 := venc_length_le s.protoVer
  have h2 := venc_strLen_length_le s.strLen
  have h3 : (venc (s.strLen.setWidth 32) ++ s.strBytes).length ≤ 258 := by
    rw [List.length_append, State.length_strBytes]; omega
  have h4 := length_u16be s.port
  have hz : s.builderReset.txBodyLen.toNat = 0 := rfl
  have hv0 := length_venc_zero
  have hv1 := length_venc_one
  have f0 : s.builderReset.txBodyLen.toNat + (venc 0).length ≤ 1022 := by omega
  have l0 := State.toNat_appended_txBodyLen f0
  have f1 : (s.builderReset.appended (venc 0)).txBodyLen.toNat + (venc s.protoVer).length ≤ 1022 := by omega
  have l1 := State.toNat_appended_txBodyLen f1
  have f2 : ((s.builderReset.appended (venc 0)).appended (venc s.protoVer)).txBodyLen.toNat +
      (venc (s.strLen.setWidth 32) ++ s.strBytes).length ≤ 1022 := by omega
  have l2 := State.toNat_appended_txBodyLen f2
  have f3 : (((s.builderReset.appended (venc 0)).appended (venc s.protoVer)).appended
      (venc (s.strLen.setWidth 32) ++ s.strBytes)).txBodyLen.toNat + (u16be s.port).length ≤ 1022 := by omega
  have l3 := State.toNat_appended_txBodyLen f3
  have f4 : ((((s.builderReset.appended (venc 0)).appended (venc s.protoVer)).appended
      (venc (s.strLen.setWidth 32) ++ s.strBytes)).appended (u16be s.port)).txBodyLen.toNat + (venc 1).length ≤ 1022 := by
    omega
  refine ⟨?_, ?_, ?_⟩
  · have hs : ¬ s.strLen.toNat > 256 := by omega
    unfold State.buildHandshake
    rw [State.append_of_fits f0]
    show Except.bind (State.append (s.builderReset.appended (venc 0)) (venc s.protoVer)) _ = _
    rw [State.append_of_fits f1]
    show Except.bind (State.appendString ((s.builderReset.appended (venc 0)).appended (venc s.protoVer))) _ = _
    have hstr : State.appendString ((s.builderReset.appended (venc 0)).appended (venc s.protoVer)) =
        .ok (((s.builderReset.appended (venc 0)).appended (venc s.protoVer)).appended
          (venc (s.strLen.setWidth 32) ++ s.strBytes)) := by
      unfold State.appendString
      rw [State.strRun_eq, if_neg (by simpa using hs)]
      exact State.append_of_fits f2
    rw [hstr]
    show Except.bind (State.append _ (u16be s.port)) _ = _
    rw [State.append_of_fits f3]
    show Except.bind (State.append _ (venc 1)) _ = _
    rw [State.append_of_fits f4]
    rfl
  · unfold State.handshakeAppended
    rw [State.bodyBytes_appended f4, State.bodyBytes_appended f3, State.bodyBytes_appended f2,
      State.bodyBytes_appended f1, State.bodyBytes_appended f0, State.bodyBytes_builderReset]
    simp [State.handshakeBody]
  · unfold State.handshakeAppended
    rw [State.toNat_appended_txBodyLen f4, l3, l2, l1, l0, hz]
    simp only [State.handshakeBody, List.length_append]
    omega

/-- Building the Handshake packet keeps BODY's canonical form. -/
theorem State.wf_body_handshakeAppended (s : State) (h : Mem.wf 1022 s.body = true) :
    Mem.wf 1022 s.handshakeAppended.body = true := by
  have key : ∀ (u : State) (bs : List Byte), Mem.wf 1022 u.body = true → Mem.wf 1022 (u.appended bs).body = true :=
    fun u bs hu => Mem.wf_writeRun _ bs hu
  exact key _ _ (key _ _ (key _ _ (key _ _ (key _ _ h))))

/-- BuildHandshake changes nothing but the builder's state (R110), whenever it answers. -/
theorem State.buildHandshake_frame {s t : State} (h : s.buildHandshake = .ok t) :
    t = { s with body := t.body, txBodyLen := t.txBodyLen, pfx := t.pfx, plen := t.plen, txFrameLen := t.txFrameLen,
                 frameValid := true } := by
  have key : BuilderOnly s t ∧ t.frameValid = true := by
    unfold State.buildHandshake at h
    obtain ⟨a, ha, h⟩ := bind_ok h
    obtain ⟨b, hb, h⟩ := bind_ok h
    obtain ⟨c, hc, h⟩ := bind_ok h
    obtain ⟨d, hd, h⟩ := bind_ok h
    obtain ⟨e, he, h⟩ := bind_ok h
    cases h
    have h0 : BuilderOnly s s.builderReset := rfl
    have h6 : BuilderOnly e e.finish := rfl
    exact ⟨((((h0.trans (builderOnly_append ha)).trans (builderOnly_append hb)).trans
      (builderOnly_appendString hc)).trans (builderOnly_append hd)).trans ((builderOnly_append he).trans h6), rfl⟩
  obtain ⟨h1, h2⟩ := key
  rw [BuilderOnly, h2] at h1
  exact h1

/-- BuildStatusRequest (R111): the two-byte frame `01 00`. -/
theorem State.buildStatusRequest_spec (s : State) :
    s.buildStatusRequest.frameBytes = [0x01, 0x00] ∧ s.buildStatusRequest.bodyBytes = [0x00] ∧
    s.buildStatusRequest.pfx.take 1 = [0x01] ∧
    s.buildStatusRequest = { s with body := s.buildStatusRequest.body, txBodyLen := 1, pfx := s.buildStatusRequest.pfx,
                                    plen := 1, txFrameLen := 2, frameValid := true } := by
  have f0 : s.builderReset.txBodyLen.toNat + (venc 0).length ≤ 1022 := by rw [length_venc_zero]; simp
  have hlen : (s.builderReset.appended (venc 0)).txBodyLen = 1 := by simp
  have hb : (s.builderReset.appended (venc 0)).bodyBytes = [0x00] := by
    rw [State.bodyBytes_appended f0, State.bodyBytes_builderReset]; decide
  have hv : venc ((s.builderReset.appended (venc 0)).txBodyLen.setWidth 32) = [1] := by rw [hlen]; decide
  refine ⟨?_, hb, ?_, ?_⟩
  · unfold State.buildStatusRequest
    rw [State.frameBytes_finish, hv, hb]; rfl
  · unfold State.buildStatusRequest
    rw [State.finish_pfx, hv]; rfl
  · unfold State.buildStatusRequest State.finish
    simp only [hv]
    simp [State.appended, State.builderReset, State.writeBody]

end Sys2Proof.Machine
end

