-- ==== Sys2Proof/Laws/Step.lean ====
section
/-! SUPPORT. Inversion: if a step, a bus write or a command answers a next state, which of its cases held. Later proofs take a
step apart with these lemmas and do not unfold it. -/

namespace Sys2Proof.Machine

open Sys2Proof

theorem step_nil {s : State} (h : s.inputs = []) : step s = .next s := by simp [step, h]

theorem step_cons {s : State} {i : Input} {rest : List Input} (h : s.inputs = i :: rest) :
    step s = if enabled i s.phase then State.take { s with inputs := rest } i else .refused (.eventNotEnabled i) := by
  simp [step, h, State.react]

theorem step_enabled {s : State} {i : Input} {rest : List Input} (h : s.inputs = i :: rest)
    (he : enabled i s.phase = true) : step s = State.take { s with inputs := rest } i := by
  rw [step_cons h, if_pos he]

/-- A step that answers a next state either had nothing scheduled or took an enabled environment step. -/
theorem step_next {s t : State} (h : step s = .next t) :
    (s.inputs = [] ∧ t = s) ∨
    ∃ i rest, s.inputs = i :: rest ∧ enabled i s.phase = true ∧ State.take { s with inputs := rest } i = .next t := by
  cases hi : s.inputs with
  | nil => rw [step_nil hi] at h; cases h; exact .inl ⟨rfl, rfl⟩
  | cons i rest =>
    rw [step_cons hi] at h
    split_ifs at h with he
    exact .inr ⟨i, rest, rfl, he, h⟩

/-- What a short command leaves (30_encoding.md R74; 60_exceptions.md R171): ERR alone, or its own writes. -/
theorem exec_short {i : Instr} {s t : State} (hi : i ≠ .hsStart) (h : exec i s = .next t) :
    (∃ e, t = s.raise e) ∨
    t = s.putVarint (venc s.operand) ∨
    (∃ v n, vdec s.vbSource = .ok (v, n) ∧ t = { s with result := v, vlen := BitVec.ofNat 3 n }) ∨
    t = s.builderReset ∨
    (∃ bs, s.txBodyLen.toNat + bs.length ≤ 1022 ∧ t = s.appended bs) ∨
    t = s.finish ∨
    (s.operand.toNat ≤ 32768 ∧ t = { s with rxFrameLen := BitVec.ofNat 16 s.operand.toNat, rxCursor := 0 }) ∨
    (∃ b, s.readerSource 0 = .ok b ∧
      t = { s with result := b.setWidth 32, rxCursor := BitVec.ofNat 16 (s.rxCursor.toNat + 1) }) ∨
    (∃ n, n ≤ s.remaining ∧ t = { s with spanOff := s.rxCursor, spanLen := BitVec.ofNat 16 n,
                                         rxCursor := BitVec.ofNat 16 (s.rxCursor.toNat + n) }) ∨
    (∃ v k, vdec s.readerSource = .ok (v, k) ∧
      t = { s with result := v, rxCursor := BitVec.ofNat 16 (s.rxCursor.toNat + k) }) := by
  have happ : ∀ {bs : List Byte}, t = s.settle (s.append bs) →
      (∃ e, t = s.raise e) ∨ ∃ bs, s.txBodyLen.toNat + bs.length ≤ 1022 ∧ t = s.appended bs := by
    intro bs ht
    rw [State.append_eq] at ht
    split_ifs at ht with hf
    · exact .inl ⟨_, ht⟩
    · exact .inr ⟨bs, by omega, ht⟩
  have hstr : ∀ {f : List Byte → List Byte},
      t = s.settle (match s.strRun with | .error e => .error e | .ok bs => s.append (f bs)) →
      (∃ e, t = s.raise e) ∨ ∃ bs, s.txBodyLen.toNat + bs.length ≤ 1022 ∧ t = s.appended bs := by
    intro f ht
    cases hr : s.strRun with
    | error e => rw [hr] at ht; exact .inl ⟨e, ht⟩
    | ok bs => rw [hr] at ht; exact happ ht
  have hspan : ∀ {n : Nat}, t = s.settle (s.readSpan n) →
      (∃ e, t = s.raise e) ∨ ∃ n, n ≤ s.remaining ∧
        t = { s with spanOff := s.rxCursor, spanLen := BitVec.ofNat 16 n,
                     rxCursor := BitVec.ofNat 16 (s.rxCursor.toNat + n) } := by
    intro n ht
    unfold State.readSpan at ht
    split_ifs at ht with hn
    · exact .inl ⟨_, ht⟩
    · exact .inr ⟨n, by omega, ht⟩
  cases i with
  | hsStart => exact absurd rfl hi
  | venc => cases h; exact .inr (.inl rfl)
  | vdec =>
    cases h
    unfold State.decodeWindow
    cases hv : vdec s.vbSource with
    | error e => exact .inl ⟨e, rfl⟩
    | ok p => exact .inr (.inr (.inl ⟨p.1, p.2, rfl, rfl⟩))
  | fbReset => cases h; exact .inr (.inr (.inr (.inl rfl)))
  | fbWbyte | fbWvarint | fbWu16be =>
    cases h
    rcases happ rfl with h | h
    · exact .inl h
    · exact .inr (.inr (.inr (.inr (.inl h))))
  | fbWbytes =>
    cases h
    rcases hstr (f := fun bs => bs) rfl with h | h
    · exact .inl h
    · exact .inr (.inr (.inr (.inr (.inl h))))
  | fbWstr =>
    cases h
    rcases hstr (f := fun bs => venc (s.strLen.setWidth 32) ++ bs) rfl with h | h
    · exact .inl h
    · exact .inr (.inr (.inr (.inr (.inl h))))
  | fbFinish => cases h; exact .inr (.inr (.inr (.inr (.inr (.inl rfl)))))
  | fpLoad =>
    cases h
    unfold State.loadReader State.operand32
    split_ifs with hn
    · exact .inl ⟨_, rfl⟩
    · exact .inr (.inr (.inr (.inr (.inr (.inr (.inl ⟨by simpa using hn, rfl⟩))))))
  | fpRbyte =>
    cases h
    unfold State.readByte
    cases hb : s.readerSource 0 with
    | error e => exact .inl ⟨e, rfl⟩
    | ok b => exact .inr (.inr (.inr (.inr (.inr (.inr (.inr (.inl ⟨b, rfl, rfl⟩)))))))
  | fpRbytes | fpRstr =>
    cases h
    rcases hspan rfl with h | h
    · exact .inl h
    · exact .inr (.inr (.inr (.inr (.inr (.inr (.inr (.inr (.inl h))))))))
  | fpRvarint =>
    cases h
    unfold State.readVarint
    cases hv : vdec s.readerSource with
    | error e => exact .inl ⟨e, rfl⟩
    | ok p => exact .inr (.inr (.inr (.inr (.inr (.inr (.inr (.inr (.inr ⟨p.1, p.2, rfl, rfl⟩))))))))

/-- What HS_START leaves (44_handshake_fsm.md R142). -/
theorem exec_hsStart {s t : State} (h : exec .hsStart s = .next t) :
    (256 < s.strLen.toNat ∧ t = s.fail .strTooLong) ∨ (s.strLen.toNat ≤ 256 ∧ t = s.startRun) := by
  simp only [exec, execHsStart, Host.Outcome.next.injEq] at h
  split_ifs at h with hl
  · exact .inl ⟨hl, h.symm⟩
  · exact .inr ⟨by simpa using hl, h.symm⟩

/-- Every command answers a next state. -/
theorem exec_completes (i : Instr) (s : State) : ∃ t, exec i s = .next t := by
  cases i <;> exact ⟨_, rfl⟩

/-- What `execute` leaves (30_encoding.md R73). -/
theorem execute_next {w : Word} {s t : State} (h : execute w s = .next t) :
    (∃ i, decode w = .ok i ∧ exec i s = .next t) ∨ t = s.raise .undefinedOpcode ∨ t = s.raise .reservedBitsSet := by
  unfold execute at h
  split at h
  · rename_i i hd; exact .inl ⟨i, hd, h⟩
  · cases h; exact .inr (.inl rfl)
  · cases h; exact .inr (.inr rfl)

theorem execute_completes (w : Word) (s : State) : ∃ t, execute w s = .next t := by
  unfold execute
  split
  · exact exec_completes _ _
  · exact ⟨_, rfl⟩
  · exact ⟨_, rfl⟩

/-- What a bus write leaves (20_memory.md R51). -/
theorem busWrite_next {off : Half} {v : Word} {s t : State} (h : busWrite off v s = .next t) :
    (wordOffset off = 0 ∧ s.busy = true ∧ t = { s with rej := true }) ∨
    (wordOffset off = 0 ∧ s.busy = false ∧ execute v s.accept = .next t) ∨
    (wordOffset off ≠ 0 ∧ s.busy = true ∧ t = s) ∨
    (wordOffset off ≠ 0 ∧ s.busy = false ∧ t = s.writeWord (wordOffset off) v) := by
  unfold busWrite at h
  by_cases h0 : wordOffset off = 0
  · rw [if_pos h0] at h
    by_cases hb : s.busy = true
    · rw [if_pos hb] at h; cases h; exact .inl ⟨h0, hb, rfl⟩
    · rw [if_neg hb] at h; exact .inr (.inl ⟨h0, by simpa using hb, h⟩)
  · rw [if_neg h0] at h
    by_cases hb : s.busy = true
    · rw [if_pos hb] at h; cases h; exact .inr (.inr (.inl ⟨h0, hb, rfl⟩))
    · rw [if_neg hb] at h; cases h; exact .inr (.inr (.inr ⟨h0, by simpa using hb, rfl⟩))

theorem busWrite_completes (off : Half) (v : Word) (s : State) : ∃ t, busWrite off v s = .next t := by
  unfold busWrite
  split_ifs
  · exact ⟨_, rfl⟩
  · exact execute_completes _ _
  · exact ⟨_, rfl⟩
  · exact ⟨_, rfl⟩

/-- What a host write stores while the block is not BUSY (20_memory.md R52): one register, or a run of STR or RX bytes. -/
theorem writeWord_cases (s : State) (w : Nat) (v : Word) :
    (∃ r, s.writeWord w v = s.writeReg r v) ∨ (∃ a, s.writeWord w v = s.writeStr a (bytesOfWord v)) ∨
    (∃ a, s.writeWord w v = s.writeRx a (bytesOfWord v)) := by
  unfold State.writeWord
  split
  · rename_i r _; exact .inl ⟨r, rfl⟩
  · split_ifs
    · exact .inr (.inl ⟨_, rfl⟩)
    · exact .inr (.inr ⟨_, rfl⟩)
    · exact .inl ⟨.cmd, rfl⟩

/-- The step at a host write is the bus write, in every phase (20_memory.md R51, R60). -/
theorem step_write {s : State} {off : Half} {v : Word} {rest : List Input} (h : s.inputs = .write32 off v :: rest) :
    step s = busWrite off v { s with inputs := rest } := step_enabled h rfl

/-- The step at a host write off CMD while not BUSY stores the word (20_memory.md R51). -/
theorem step_write_idle {s : State} {off : Half} {v : Word} {rest : List Input} (h : s.inputs = .write32 off v :: rest)
    (hb : s.busy = false) (ho : wordOffset off ≠ 0) :
    step s = .next (State.writeWord { s with inputs := rest } (wordOffset off) v) := by
  have hb' : State.busy { s with inputs := rest } = false := hb
  rw [step_write h, busWrite, if_neg ho, if_neg (by simp [hb'])]

/-! ### The events -/

/-- What ConnOk leaves (44_handshake_fsm.md R143): the run fails, or the builder holds a frame and its send begins. -/
theorem State.connOk_cases (s : State) :
    (256 < s.strLen.toNat ∧ ∃ e, s.connOk = s.fail e) ∨
    (s.strLen.toNat ≤ 256 ∧
      s.connOk = { s.handshakeAppended.finish with fsm := .connected, txSent := 0, phase := .sendHs } ∧
      s.connOk = { s with fsm := .connected, phase := .sendHs, txSent := 0, body := s.connOk.body,
                          txBodyLen := s.connOk.txBodyLen, pfx := s.connOk.pfx, plen := s.connOk.plen,
                          txFrameLen := s.connOk.txFrameLen, frameValid := true }) := by
  have hf : ∀ t, State.buildHandshake { s with fsm := .connected } = .ok t →
      s.connOk = { t with txSent := 0, phase := .sendHs } := fun t ht => by unfold State.connOk; rw [ht]
  by_cases h : s.strLen.toNat ≤ 256
  · obtain ⟨h1, -, -⟩ := State.buildHandshake_of_strLen { s with fsm := .connected } h
    have h2 := hf _ h1
    have h3 := State.buildHandshake_frame h1
    refine .inr ⟨h, h2, ?_⟩
    generalize State.handshakeAppended _ = u at *
    generalize u.finish = f at *
    rw [h2, h3]
  · refine .inl ⟨by omega, ?_⟩
    cases ht : State.buildHandshake { s with fsm := .connected } with
    | error e => exact ⟨e, by unfold State.connOk; rw [ht]⟩
    | ok t =>
      exfalso
      unfold State.buildHandshake at ht
      obtain ⟨a, ha, ht⟩ := bind_ok ht
      obtain ⟨b, hb, ht⟩ := bind_ok ht
      obtain ⟨c, hc, -⟩ := bind_ok ht
      have h1 := builderOnly_append ha
      have h2 := builderOnly_append hb
      have hl : b.strLen = s.strLen := by rw [h2]; show a.strLen = _; rw [h1]; rfl
      unfold State.appendString at hc
      rw [State.strRun_eq, hl, if_pos (by omega)] at hc
      cases hc

/-- What TxAccept leaves (R145 to R147): the byte went out and a byte is left, or the handshake's last byte opened the Status
Request, or the Status Request's last byte opened the receive. -/
theorem State.txAccept_cases (s : State) :
    (BitVec.ofNat 11 (s.txSent.toNat + 1) ≠ s.txFrameLen ∧
      s.txAccept = { s with trace := s.trace ++ [.txByte (s.frameByte s.txSent.toNat)],
                            txSent := BitVec.ofNat 11 (s.txSent.toNat + 1) }) ∨
    (BitVec.ofNat 11 (s.txSent.toNat + 1) = s.txFrameLen ∧ s.phase = .sendHs ∧ s.txAccept.pfx.take 1 = [0x01] ∧
      s.txAccept.pfx.length = 1 + (s.pfx.length - 1) ∧ s.txAccept.body = Mem.writeRun 1022 s.body 0 [0x00] ∧
      s.txAccept = { s with trace := s.trace ++ [.txByte (s.frameByte s.txSent.toNat)], fsm := .handshakeSent,
                            phase := .sendSr, txSent := 0, body := s.txAccept.body, txBodyLen := 1,
                            pfx := s.txAccept.pfx, plen := 1, txFrameLen := 2, frameValid := true }) ∨
    (BitVec.ofNat 11 (s.txSent.toNat + 1) = s.txFrameLen ∧ s.phase ≠ .sendHs ∧
      s.txAccept = { s with trace := s.trace ++ [.txByte (s.frameByte s.txSent.toNat)], txSent := s.txFrameLen,
                            fsm := .statusRequested, phase := .recvLen, timer := 0, lacc := 0, lcnt := 0,
                            rxFrameLen := 0, rxRcvd := 0, rxCursor := 0 }) := by
  have ht : s.txAccept =
      if BitVec.ofNat 11 (s.txSent.toNat + 1) = s.txFrameLen then
        (if s.phase = .sendHs then
          State.handshakeSent { s with trace := s.trace ++ [.txByte (s.frameByte s.txSent.toNat)],
                                       txSent := BitVec.ofNat 11 (s.txSent.toNat + 1) }
        else State.requestSent { s with trace := s.trace ++ [.txByte (s.frameByte s.txSent.toNat)],
                                        txSent := BitVec.ofNat 11 (s.txSent.toNat + 1) })
      else { s with trace := s.trace ++ [.txByte (s.frameByte s.txSent.toNat)],
                    txSent := BitVec.ofNat 11 (s.txSent.toNat + 1) } := rfl
  by_cases h1 : BitVec.ofNat 11 (s.txSent.toNat + 1) = s.txFrameLen
  · by_cases h2 : s.phase = .sendHs
    · rw [if_pos h1, if_pos h2] at ht
      refine .inr (.inl ⟨h1, h2, ?_⟩)
      unfold State.handshakeSent at ht
      generalize hu : ({ s with trace := s.trace ++ [.txByte (s.frameByte s.txSent.toNat)], txSent := BitVec.ofNat 11 (s.txSent.toNat + 1), fsm := .handshakeSent } : State) = u at ht
      obtain ⟨-, -, a3, a4⟩ := State.buildStatusRequest_spec u
      have a5 : u.buildStatusRequest.pfx.length = 1 + (u.pfx.length - 1) := by
        unfold State.buildStatusRequest
        rw [State.finish_pfx]
        simp [Nat.add_comm]
      have a6 : u.buildStatusRequest.body = Mem.writeRun 1022 u.body 0 [0x00] := rfl
      have e1 : u.pfx = s.pfx := by rw [← hu]
      have e2 : u.body = s.body := by rw [← hu]
      rw [e1] at a5
      rw [e2] at a6
      generalize u.buildStatusRequest = f at *
      rw [ht]
      refine ⟨a3, a5, a6, ?_⟩
      rw [a4, ← hu]
    · rw [if_pos h1, if_neg h2] at ht
      exact .inr (.inr ⟨h1, h2, by rw [ht, h1]; rfl⟩)
  · rw [if_neg h1] at ht
    exact .inl ⟨h1, ht⟩

/-- The prefix value of R126 is what a decode accumulates (R91). -/
theorem State.prefixValue_eq (s : State) (b : Byte) : s.prefixValue b = vdecAccumulate s.lacc s.lcnt.toNat b := rfl

/-- What a byte of the length prefix leaves (43_frame_parser.md R126), in every case. -/
theorem State.rxLengthByte_cases (s : State) (b : Byte) :
    ∃ (L : Word) (c : BitVec 3), L = vdecAccumulate s.lacc s.lcnt.toNat b ∧ c = BitVec.ofNat 3 (s.lcnt.toNat + 1) ∧
      ((continues b = true ∧ c ≠ 5 ∧ s.rxLengthByte b = { s with lacc := L, lcnt := c }) ∨
       (∃ e, ((continues b = true ∧ c = 5) ∨ (continues b = false ∧ 32768 < L.toNat)) ∧
        s.rxLengthByte b = State.fail { s with lacc := L, lcnt := c } e) ∨
       (continues b = false ∧ L = 0 ∧
        s.rxLengthByte b = State.complete { s with lacc := L, lcnt := c, rxFrameLen := 0, rxRcvd := 0 }) ∨
       (continues b = false ∧ L ≠ 0 ∧ L.toNat ≤ 32768 ∧
        s.rxLengthByte b = { s with lacc := L, lcnt := c, rxFrameLen := BitVec.ofNat 16 L.toNat, rxRcvd := 0,
                                    phase := .recvBody })) := by
  refine ⟨_, _, rfl, rfl, ?_⟩
  unfold State.rxLengthByte
  generalize vdecAccumulate s.lacc s.lcnt.toNat b = L
  generalize BitVec.ofNat 3 (s.lcnt.toNat + 1) = c
  simp only
  by_cases hb : continues b = true
  · rw [if_pos hb]
    by_cases hc : c = 5
    · rw [if_pos hc]; exact .inr (.inl ⟨_, .inl ⟨hb, hc⟩, rfl⟩)
    · rw [if_neg hc]; exact .inl ⟨hb, hc, rfl⟩
  · rw [if_neg hb]
    by_cases hL : L.toNat > Config.rxBufBytes
    · rw [if_pos hL]; exact .inr (.inl ⟨_, .inr ⟨by simpa using hb, hL⟩, rfl⟩)
    · rw [if_neg hL]
      by_cases h0 : L = 0
      · subst h0; exact .inr (.inr (.inl ⟨by simpa using hb, rfl, by rw [if_pos rfl]; rfl⟩))
      · rw [if_neg h0]; exact .inr (.inr (.inr ⟨by simpa using hb, h0, by simpa using hL, rfl⟩))

/-- What a body byte leaves (43_frame_parser.md R127). -/
theorem State.rxBodyByte_cases (s : State) (b : Byte) :
    (BitVec.ofNat 16 (s.rxRcvd.toNat + 1) ≠ s.rxFrameLen ∧
      s.rxBodyByte b = { s with rx := Mem.writeRun 32768 s.rx s.rxRcvd.toNat [b],
                                rxRcvd := BitVec.ofNat 16 (s.rxRcvd.toNat + 1) }) ∨
    (BitVec.ofNat 16 (s.rxRcvd.toNat + 1) = s.rxFrameLen ∧
      s.rxBodyByte b = State.complete { s with rx := Mem.writeRun 32768 s.rx s.rxRcvd.toNat [b],
                                               rxRcvd := s.rxFrameLen }) := by
  have h : s.rxBodyByte b = if BitVec.ofNat 16 (s.rxRcvd.toNat + 1) = s.rxFrameLen then
      State.complete { s with rx := Mem.writeRun 32768 s.rx s.rxRcvd.toNat [b],
                              rxRcvd := BitVec.ofNat 16 (s.rxRcvd.toNat + 1) }
      else { s with rx := Mem.writeRun 32768 s.rx s.rxRcvd.toNat [b],
                    rxRcvd := BitVec.ofNat 16 (s.rxRcvd.toNat + 1) } := rfl
  split_ifs at h with hc
  · exact .inr ⟨hc, by rw [h, hc]⟩
  · exact .inl ⟨hc, h⟩

/-- What a tick leaves (44_handshake_fsm.md R151): nothing, the count, or the count and the timeout. -/
theorem State.tick_cases (s : State) :
    (s.phase ≠ .connecting ∧ s.phase ≠ .recvLen ∧ s.phase ≠ .recvBody ∧ s.tick = s) ∨
    (s.phase = .connecting ∧ (timerNext s.timer).toNat < s.connectTimeout.toNat ∧
      s.tick = { s with timer := timerNext s.timer }) ∨
    (s.phase = .connecting ∧ s.connectTimeout.toNat ≤ (timerNext s.timer).toNat ∧
      s.tick = State.fail { s with timer := timerNext s.timer } .connectTimeout) ∨
    ((s.phase = .recvLen ∨ s.phase = .recvBody) ∧ (timerNext s.timer).toNat < s.readTimeout.toNat ∧
      s.tick = { s with timer := timerNext s.timer }) ∨
    ((s.phase = .recvLen ∨ s.phase = .recvBody) ∧ s.readTimeout.toNat ≤ (timerNext s.timer).toNat ∧
      s.tick = State.fail { s with timer := timerNext s.timer } .readTimeout) := by
  unfold State.tick
  cases hp : s.phase
  case idle | sendHs | sendSr | done => exact .inl ⟨by decide, by decide, by decide, rfl⟩
  case connecting =>
    simp only
    split_ifs with h
    · exact .inr (.inr (.inl ⟨trivial, h, by rw [← hp]⟩))
    · exact .inr (.inl ⟨trivial, by omega, by rw [← hp]⟩)
  case recvLen | recvBody =>
    simp only
    split_ifs with h
    · exact .inr (.inr (.inr (.inr ⟨by decide, h, by rw [← hp]⟩)))
    · exact .inr (.inr (.inr (.inl ⟨by decide, by omega, by rw [← hp]⟩)))
end Sys2Proof.Machine
end

