-- ==== Sys2Proof/Laws/Bus.lean ====
section
/-! SUPPORT. Command words, bus offsets and window words, said once (spec/30_encoding.md R71; spec/20_memory.md R50 to R57), and a
run of several steps taken apart. -/

namespace Sys2Proof.Machine

open Sys2Proof

/-- The two readings of the opcode map are one (R71). -/
theorem instrOfOpcode_eq_some_iff (o : BitVec 8) (i : Instr) : instrOfOpcode o = some i ↔ o = opcodeOf i := by
  revert o; cases i <;> decide

/-- The opcodes without a command are those the map does not define (R71). -/
theorem instrOfOpcode_eq_none_iff (o : BitVec 8) : instrOfOpcode o = none ↔ o ∉ definedOpcodes := by
  revert o; decide

theorem wordOffset_eq_zero_iff {off : Half} : wordOffset off = 0 ↔ off &&& 0xFFFC = 0 := by
  unfold wordOffset
  rw [← BitVec.toNat_inj]; rfl

/-- An access goes to the multiple of 4 at or below its offset (R50). -/
theorem wordOffset_eq (off : Half) : wordOffset off = 4 * (off.toNat / 4) := by
  have h1 : off &&& 0xFFFC = BitVec.ofNat 16 (4 * (off.toNat / 4)) := by
    apply BitVec.eq_of_getLsbD_eq
    intro m hm
    simp only [BitVec.getLsbD_and, BitVec.getLsbD_ofNat]
    rw [show 4 * (off.toNat / 4) = 2 ^ 2 * (off.toNat / 2 ^ 2) by norm_num, Nat.testBit_two_pow_mul,
      Nat.testBit_div_two_pow]
    by_cases h2 : m < 2
    · have : BitVec.getLsbD (0xFFFC : Half) m = false := by interval_cases m <;> rfl
      simp only [this, show ¬ 2 ≤ m by omega, Bool.and_false, decide_false, Bool.false_and]
    · have : BitVec.getLsbD (0xFFFC : Half) m = true := by interval_cases m <;> rfl
      simp only [this, hm, show 2 ≤ m by omega, show m - 2 + 2 = m by omega, decide_true, Bool.true_and,
        Bool.and_true, BitVec.testBit_toNat]
  unfold wordOffset
  rw [h1]
  have := off.isLt
  simp; omega

theorem wordOffset_ofNat (n : Nat) (h : 4 * n < 65536) : wordOffset (BitVec.ofNat 16 (4 * n)) = 4 * n := by
  rw [wordOffset_eq]; simp; omega

/-- No register stands at or past 0x58 (R52). -/
theorem regAt_eq_none {w : Nat} (h : 0x58 ≤ w) : regAt w = none := by
  unfold regAt
  split <;> first | rfl | omega

/-- The bytes of a packed word are the packed bytes (R54). -/
theorem extract_packBytes (b0 b1 b2 b3 : Byte) (j : Nat) (hj : j < 4) :
    (packBytes b0 b1 b2 b3).extractLsb' (8 * j) 8 = [b0, b1, b2, b3].getD j 0 := by
  apply BitVec.eq_of_getLsbD_eq
  intro m hm
  rw [BitVec.getLsbD_extractLsb']
  simp only [hm, decide_true, Bool.true_and, packBytes]
  rw [BitVec.getLsbD_append, BitVec.getLsbD_append, BitVec.getLsbD_append]
  interval_cases j <;> split_ifs <;>
    first
    | omega
    | exact congrArg b0.getLsbD (by omega)
    | exact congrArg b1.getLsbD (by omega)
    | exact congrArg b2.getLsbD (by omega)
    | exact congrArg b3.getLsbD (by omega)

/-! ### Several steps -/

theorem run_succ {k : Nat} {s t : State} (h : step s = .next t) :
    Host.Core.run Sys2Proof.core (k + 1) s = Host.Core.run Sys2Proof.core k t := by
  have : Sys2Proof.core.step s = .next t := h
  simp only [Host.Core.run, this]

theorem run_add {a b : Nat} {s t : State} (h : Host.Core.run Sys2Proof.core a s = .next t) :
    Host.Core.run Sys2Proof.core (a + b) s = Host.Core.run Sys2Proof.core b t := by
  induction a generalizing s with
  | zero => cases h; simp
  | succ a ih =>
    cases hs : step s with
    | next u => rw [run_succ hs] at h; rw [show a + 1 + b = a + b + 1 by omega, run_succ hs]; exact ih h
    | fault e => cases e
    | refused e =>
      have : Sys2Proof.core.step s = .refused e := hs
      simp only [Host.Core.run, this] at h
      cases h

end Sys2Proof.Machine
end

