-- ==== Sys2Proof/Laws/PerInstr.lean ====
section
/-! SUPPORT. A law that every command obeys, one lemma per constructor of Instr. -/

namespace Sys2Proof.Laws

open Sys2Proof

/-- The encoding of a command (spec/30_encoding.md R70, R71): its OPC is one the map defines, its RSVD is 0, its word decodes
back to it, and no other command has its OPC. -/
def CommandEncoding.Statement (i : Instr) : Prop :=
  i.wellFormed = true ∧ definedOpcodes.contains (opcodeOf i) = true ∧ (encode i).extractLsb' 0 8 = opcodeOf i ∧
    (encode i).extractLsb' 8 24 = 0 ∧ decode (encode i) = .ok i ∧ ∀ j : Instr, opcodeOf j = opcodeOf i → j = i

theorem CommandEncoding.venc : CommandEncoding.Statement .venc :=
  ⟨by decide, by decide, by decide, by decide, by decide, fun j h => by cases j <;> first | rfl | exact absurd h (by decide)⟩

theorem CommandEncoding.vdec : CommandEncoding.Statement .vdec :=
  ⟨by decide, by decide, by decide, by decide, by decide, fun j h => by cases j <;> first | rfl | exact absurd h (by decide)⟩

theorem CommandEncoding.fbReset : CommandEncoding.Statement .fbReset :=
  ⟨by decide, by decide, by decide, by decide, by decide, fun j h => by cases j <;> first | rfl | exact absurd h (by decide)⟩

theorem CommandEncoding.fbWbyte : CommandEncoding.Statement .fbWbyte :=
  ⟨by decide, by decide, by decide, by decide, by decide, fun j h => by cases j <;> first | rfl | exact absurd h (by decide)⟩

theorem CommandEncoding.fbWbytes : CommandEncoding.Statement .fbWbytes :=
  ⟨by decide, by decide, by decide, by decide, by decide, fun j h => by cases j <;> first | rfl | exact absurd h (by decide)⟩

theorem CommandEncoding.fbWvarint : CommandEncoding.Statement .fbWvarint :=
  ⟨by decide, by decide, by decide, by decide, by decide, fun j h => by cases j <;> first | rfl | exact absurd h (by decide)⟩

theorem CommandEncoding.fbWu16be : CommandEncoding.Statement .fbWu16be :=
  ⟨by decide, by decide, by decide, by decide, by decide, fun j h => by cases j <;> first | rfl | exact absurd h (by decide)⟩

theorem CommandEncoding.fbWstr : CommandEncoding.Statement .fbWstr :=
  ⟨by decide, by decide, by decide, by decide, by decide, fun j h => by cases j <;> first | rfl | exact absurd h (by decide)⟩

theorem CommandEncoding.fbFinish : CommandEncoding.Statement .fbFinish :=
  ⟨by decide, by decide, by decide, by decide, by decide, fun j h => by cases j <;> first | rfl | exact absurd h (by decide)⟩

theorem CommandEncoding.fpLoad : CommandEncoding.Statement .fpLoad :=
  ⟨by decide, by decide, by decide, by decide, by decide, fun j h => by cases j <;> first | rfl | exact absurd h (by decide)⟩

theorem CommandEncoding.fpRbyte : CommandEncoding.Statement .fpRbyte :=
  ⟨by decide, by decide, by decide, by decide, by decide, fun j h => by cases j <;> first | rfl | exact absurd h (by decide)⟩

theorem CommandEncoding.fpRbytes : CommandEncoding.Statement .fpRbytes :=
  ⟨by decide, by decide, by decide, by decide, by decide, fun j h => by cases j <;> first | rfl | exact absurd h (by decide)⟩

theorem CommandEncoding.fpRvarint : CommandEncoding.Statement .fpRvarint :=
  ⟨by decide, by decide, by decide, by decide, by decide, fun j h => by cases j <;> first | rfl | exact absurd h (by decide)⟩

theorem CommandEncoding.fpRstr : CommandEncoding.Statement .fpRstr :=
  ⟨by decide, by decide, by decide, by decide, by decide, fun j h => by cases j <;> first | rfl | exact absurd h (by decide)⟩

theorem CommandEncoding.hsStart : CommandEncoding.Statement .hsStart :=
  ⟨by decide, by decide, by decide, by decide, by decide, fun j h => by cases j <;> first | rfl | exact absurd h (by decide)⟩

end Sys2Proof.Laws
end

