-- ==== Sys2Proof/Tests/Slice0.lean ====
section
/-! SUPPORT. The model's own tests: the checks of WellFormed refuse ill-formed terms, every command's word decodes, a few steps
agree with the vectors of spec/95_test_vectors.md (each test names its vector), and every statement that has hypotheses has a concrete
state and operands that meet them. -/

namespace Sys2Proof.Tests

open Sys2Proof Sys2Proof.Machine

/-! ## WellFormed -/

theorem test_wellFormed_venc_word : (commandFields 0x00000001).wellFormed = true := by decide

theorem test_wellFormed_refuses_undefined_opcode :
    (commandFields 0x00000003).opcodeDefined = false ∧ (commandFields 0x00000003).wellFormed = false := by decide

theorem test_wellFormed_refuses_reserved_bits :
    (commandFields 0x00000101).reservedClear = false ∧ (commandFields 0x00000101).wellFormed = false := by decide

theorem test_wellFormed_params : Config.params.wellFormed = true := by decide

/-- R6's four conditions, each broken alone. -/
theorem test_wellFormed_refuses_params :
    Config.Params.wellFormed ⟨256, 1023, 1024, 32768⟩ = false ∧ Config.Params.wellFormed ⟨256, 1022, 1025, 32768⟩ = false ∧
    Config.Params.wellFormed ⟨256, 1022, 1024, 32769⟩ = false ∧ Config.Params.wellFormed ⟨257, 1022, 1024, 32768⟩ = false := by
  decide

/-! ## Decoding: RSVD (24 bits of 0) above OPC, the words of 30_encoding.md R70 and R71 written out bit by bit -/

theorem test_decode_venc : decode 0b00000000_00000000_00000000_00000001 = .ok .venc := by decide
theorem test_decode_vdec : decode 0b00000000_00000000_00000000_00000010 = .ok .vdec := by decide
theorem test_decode_fbReset : decode 0b00000000_00000000_00000000_00010000 = .ok .fbReset := by decide
theorem test_decode_fbWbyte : decode 0b00000000_00000000_00000000_00010001 = .ok .fbWbyte := by decide
theorem test_decode_fbWbytes : decode 0b00000000_00000000_00000000_00010010 = .ok .fbWbytes := by decide
theorem test_decode_fbWvarint : decode 0b00000000_00000000_00000000_00010011 = .ok .fbWvarint := by decide
theorem test_decode_fbWu16be : decode 0b00000000_00000000_00000000_00010100 = .ok .fbWu16be := by decide
theorem test_decode_fbWstr : decode 0b00000000_00000000_00000000_00010101 = .ok .fbWstr := by decide
theorem test_decode_fbFinish : decode 0b00000000_00000000_00000000_00010110 = .ok .fbFinish := by decide
theorem test_decode_fpLoad : decode 0b00000000_00000000_00000000_00100000 = .ok .fpLoad := by decide
theorem test_decode_fpRbyte : decode 0b00000000_00000000_00000000_00100001 = .ok .fpRbyte := by decide
theorem test_decode_fpRbytes : decode 0b00000000_00000000_00000000_00100010 = .ok .fpRbytes := by decide
theorem test_decode_fpRvarint : decode 0b00000000_00000000_00000000_00100011 = .ok .fpRvarint := by decide
theorem test_decode_fpRstr : decode 0b00000000_00000000_00000000_00100100 = .ok .fpRstr := by decide
theorem test_decode_hsStart : decode 0b00000000_00000000_00000000_00110000 = .ok .hsStart := by decide

/-- V-CM-1, V-CM-3, V-CM-4, V-CM-5: the undefined opcode is reported first. -/
theorem test_decode_refuses :
    decode 0x00000000 = .error .undefinedOpcode ∧ decode 0xFFFFFFFF = .error .undefinedOpcode ∧
    decode 0x00000101 = .error .reservedBitsSet ∧ decode 0x80000030 = .error .reservedBitsSet := by decide

/-- The table's numbering: bits above the word are no part of it. -/
theorem test_decodeTableWord : decodeTableWord 32 0x14 = some .fbWu16be ∧ decodeTableWord 8 0x30 = some .hsStart ∧
    decodeTableWord 32 0x17 = none := by decide

/-! ## One step each -/

/-- A field of the state a step answers. -/
def field {α : Type} (f : State → α) (o : Outcome) : Option α :=
  match o with
  | .next t => some (f t)
  | .fault _ => none
  | .refused _ => none

/-- ERR as the host reads it: CODE and SUB. -/
def err (s : State) : BitVec 4 × BitVec 4 := (s.errCode, s.errSub)

/-- The reader over `00 02 68 69` at a cursor (V-FP-5). -/
def readerState (cursor : Half) (operand : Word) : State :=
  { State.reset with rx := [(0, 0x00), (1, 0x02), (2, 0x68), (3, 0x69)], rxFrameLen := 4, rxCursor := cursor, operand := operand }

/-- "hi" in STR (V-FB-10, V-FB-11), a body of `n` bytes. -/
def builderState (n : BitVec 10) (operand : Word) : State :=
  { State.reset with str := [(0, 0x68), (1, 0x69)], strLen := 2, txBodyLen := n, operand := operand }

/-- State S of 95_test_vectors.md 2.6, as far as the tests need it, with READ_TIMEOUT 10. -/
def stateS (inputs : List Input) : State :=
  { State.reset with fsm := .statusRequested, phase := .recvLen, connectTimeout := 10, readTimeout := 10, frameValid := true,
                     pfx := [1, 0, 0, 0, 0], plen := 1, body := [(0, 0)], txBodyLen := 1, txFrameLen := 2, txSent := 2,
                     inputs := inputs }

/-- V-HS-29: SEND_HS with the frame `07 00 2F 01 61 63 DD 01`, `sent` bytes of it gone. -/
def sendState (sent : BitVec 11) (inputs : List Input) : State :=
  { State.reset with fsm := .connected, phase := .sendHs, frameValid := true, pfx := [7, 0, 0, 0, 0], plen := 1,
                     body := [(0, 0x00), (1, 0x2F), (2, 0x01), (3, 0x61), (4, 0x63), (5, 0xDD), (6, 0x01)],
                     txBodyLen := 7, txFrameLen := 8, txSent := sent, inputs := inputs }

/-- V-HS-24: CONNECTING with "a" and CONNECT_TIMEOUT 3. -/
def connectingState (inputs : List Input) : State :=
  { State.reset with fsm := .idle, phase := .connecting, str := [(0, 0x61)], strLen := 1, connectTimeout := 3, readTimeout := 10,
                     inputs := inputs }

/-- V-VE-8 -/
theorem test_venc_three_bytes : field (fun t => (t.vbytesLo, t.vbytesHi, t.vlen)) (exec .venc { State.reset with operand := 25565 })
    = some (0x0001C7DD, 0x00, 3) := by decide

/-- V-VE-14 -/
theorem test_venc_five_bytes :
    field (fun t => (t.vbytesLo, t.vbytesHi, t.vlen)) (exec .venc { State.reset with operand := 0x80000000 })
    = some (0x80808080, 0x08, 5) := by decide

/-- V-VD-12: bits [6:4] of the fifth byte are ignored. -/
theorem test_vdec_fifth_byte : field (fun t => (t.result, t.vlen, err t))
    (exec .vdec { State.reset with vbytesLo := 0xFFFFFFFF, vbytesHi := 0x7F }) = some (0xFFFFFFFF, 5, (0, 0)) := by decide

/-- V-VD-14: overlong, RESULT and VLEN unchanged. -/
theorem test_vdec_overlong : field (fun t => (t.result, t.vlen, err t))
    (exec .vdec { State.reset with vbytesLo := 0x80808080, vbytesHi := 0x80, result := 7, vlen := 2 })
    = some (7, 2, (3, 1)) := by decide

/-- V-FB-27 -/
theorem test_fbReset : field (fun t => (t.txBodyLen, t.txFrameLen, t.frameValid, t.txSent)) (exec .fbReset (sendState 5 []))
    = some (0, 0, false, 5) := by decide

/-- V-FB-6: OPERAND[31:8] is ignored. -/
theorem test_fbWbyte : field State.bodyBytes (exec .fbWbyte (builderState 0 0x1FF)) = some [0xFF] := by decide

/-- V-FB-21 -/
theorem test_fbWbyte_full : field (fun t => (t.txBodyLen, err t)) (exec .fbWbyte (builderState 1022 0)) = some (1022, (4, 2)) := by
  decide

/-- V-FB-10 -/
theorem test_fbWbytes : field State.bodyBytes (exec .fbWbytes (builderState 0 0)) = some [0x68, 0x69] := by decide

/-- V-FB-16: STR_LEN 257 is refused before room is checked. -/
theorem test_fbWbytes_too_long : field err (exec .fbWbytes { builderState 1022 0 with strLen := 0x101 }) = some (4, 1) := by decide

/-- V-FB-9 -/
theorem test_fbWvarint : field State.bodyBytes (exec .fbWvarint (builderState 0 0xFFFFFFFF)) = some [0xFF, 0xFF, 0xFF, 0xFF, 0x0F] := by
  decide

/-- V-FB-23: five bytes do not fit in four, four do. -/
theorem test_fbWvarint_room : field err (exec .fbWvarint (builderState 1018 0x10000000)) = some (4, 2) ∧
    field State.txBodyLen (exec .fbWvarint (builderState 1018 0x0FFFFFFF)) = some 1022 := by decide

/-- V-FB-7, V-L6: most significant byte first. -/
theorem test_fbWu16be : field State.bodyBytes (exec .fbWu16be (builderState 0 0x12345678)) = some [0x56, 0x78] := by decide

/-- V-FB-22 -/
theorem test_fbWu16be_room : field (fun t => (t.txBodyLen, err t)) (exec .fbWu16be (builderState 1021 1)) = some (1021, (4, 2)) := by
  decide

/-- V-FB-11 -/
theorem test_fbWstr : field State.bodyBytes (exec .fbWstr (builderState 0 0)) = some [0x02, 0x68, 0x69] := by decide

/-- V-FB-25: a string of one byte needs two. -/
theorem test_fbWstr_room : field err (exec .fbWstr { builderState 1021 0 with strLen := 1 }) = some (4, 2) := by decide

/-- V-FB-5 -/
theorem test_fbFinish : field State.frameBytes (exec .fbFinish { State.reset with txBodyLen := 2, body := [(0, 0x00), (1, 0x41)] })
    = some [0x02, 0x00, 0x41] := by decide

/-- V-FB-20: a full body takes a two-byte prefix. -/
theorem test_fbFinish_full : field (fun t => (t.pfx.take 2, t.plen, t.txFrameLen)) (exec .fbFinish (builderState 1022 0))
    = some ([0xFE, 0x07], 2, 1024) := by decide

/-- V-FP-2 -/
theorem test_fpLoad : field (fun t => (t.rxFrameLen, t.rxCursor, err t)) (exec .fpLoad (readerState 2 32768))
    = some (0x8000, 0, (0, 0)) := by decide

/-- V-FP-3 -/
theorem test_fpLoad_too_large : field (fun t => (t.rxFrameLen, t.rxCursor, err t)) (exec .fpLoad (readerState 2 32769))
    = some (4, 2, (4, 3)) := by decide

/-- V-FP-12: zero-extended. -/
theorem test_fpRbyte : field (fun t => (t.result, t.rxCursor))
    (exec .fpRbyte { State.reset with rx := [(0, 0xFF)], rxFrameLen := 1 }) = some (0x000000FF, 1) := by decide

/-- V-FP-9 -/
theorem test_fpRbyte_past_end : field (fun t => (t.rxCursor, err t)) (exec .fpRbyte (readerState 4 0)) = some (4, (3, 2)) := by decide

/-- V-FP-8: an empty span at the end. -/
theorem test_fpRbytes_empty : field (fun t => (t.spanOff, t.spanLen, t.rxCursor, err t)) (exec .fpRbytes (readerState 4 0))
    = some (4, 0, 4, (0, 0)) := by decide

/-- V-FP-10: compared before any narrowing. -/
theorem test_fpRbytes_past_end : field err (exec .fpRbytes (readerState 0 0xFFFFFFFF)) = some (3, 2) := by decide

/-- V-FP-6 -/
theorem test_fpRvarint : field (fun t => (t.result, t.rxCursor)) (exec .fpRvarint (readerState 1 0)) = some (2, 2) := by decide

/-- V-FP-13: the body ends before a terminating byte. -/
theorem test_fpRvarint_past_end : field (fun t => (t.rxCursor, err t))
    (exec .fpRvarint { State.reset with rx := [(0, 0x80)], rxFrameLen := 1 }) = some (0, (3, 2)) := by decide

/-- V-FP-7 -/
theorem test_fpRstr : field (fun t => (t.spanOff, t.spanLen, t.rxCursor)) (exec .fpRstr (readerState 2 2)) = some (2, 2, 4) := by decide

/-- V-FP-11 -/
theorem test_fpRstr_past_end : field err (exec .fpRstr (readerState 0 5)) = some (3, 2) := by decide

/-- V-HS-24 -/
theorem test_hsStart : field (fun t => (t.phase, t.trace)) (exec .hsStart { connectingState [] with phase := .idle })
    = some (.connecting, [.connReq [0x61] 25565]) := by decide

/-- V-HS-23 -/
theorem test_hsStart_too_long : field (fun t => (t.status, err t, t.trace)) (exec .hsStart { State.reset with strLen := 257 })
    = some (0x0E5, (4, 1), [.close]) := by decide

/-- V-HS-29, V-FB-29 -/
theorem test_connOk : field (fun t => (t.status, t.frameBytes)) (step (connectingState [.connOk]))
    = some (0x229, [0x07, 0x00, 0x2F, 0x01, 0x61, 0x63, 0xDD, 0x01]) := by decide

/-- V-HS-32: the last handshake byte. -/
theorem test_txAccept_last : field (fun t => (t.status, t.trace, t.frameBytes)) (step (sendState 7 [.txAccept]))
    = some (0x23A, [.txByte 0x01], [0x01, 0x00]) := by decide

/-- V-HS-5: a zero length is parsed at once. -/
theorem test_rxByte_zero_length : field (fun t => (t.status, err t, t.trace)) (step (stateS [.rxByte 0]))
    = some (0x2E5, (3, 2), [.close]) := by decide

/-- V-HS-1, its last byte. -/
theorem test_rxByte_completes : field (fun t => (t.status, t.result, t.spanOff, t.spanLen, t.rxCursor))
    (step { stateS [.rxByte 0x41] with phase := .recvBody, rx := [(0, 0x00), (1, 0x01)], rxFrameLen := 3, rxRcvd := 2 })
    = some (0x264, 1, 2, 1, 3) := by decide

/-- V-HS-27 -/
theorem test_tick_connect_timeout : field (fun t => (t.status, t.timer, err t)) (step { connectingState [.tick] with timer := 2 })
    = some (0x0E5, 3, (1, 2)) := by decide

/-- V-HS-16 -/
theorem test_rxEos : field err (step (stateS [.rxEos])) = some (3, 4) := by decide

/-- V-HS-20: the tick that fails keeps its count (log 8). -/
theorem test_tick_zero_timeout : field (fun t => (t.timer, err t)) (step { stateS [.tick] with readTimeout := 0 }) = some (1, (2, 0)) := by
  decide

/-- V-HS-8: an unexpected packetID keeps what the read wrote (log 8). -/
theorem test_rxByte_unexpected_id : field (fun t => (t.result, t.rxCursor, t.rxRcvd, err t))
    (step { stateS [.rxByte 0] with phase := .recvBody, rx := [(0, 0x01)], rxFrameLen := 2, rxRcvd := 1 }) =
      some (1, 1, 2, (3, 3)) := by decide

/-- R157: TxAccept is not enabled in RECV_LEN. -/
theorem test_event_not_enabled : step (stateS [.txAccept]) = .refused (.eventNotEnabled .txAccept) := by rfl

/-- V-CM-7 -/
theorem test_busy_rejects : field (fun t => (t.rej, t.vlen)) (step (stateS [.write32 0 1])) = some (true, 0) := by decide

/-- V-CM-17 -/
theorem test_str_window : field (fun t => (t.bytesFrom .str 0 4, t.readWord 0x0100)) (step { State.reset with inputs := [.write32 0x0100 0x44332211] })
    = some ([0x11, 0x22, 0x33, 0x44], 0x44332211) := by decide

/-- V-HS-35, V-RS-1 -/
theorem test_reset : field (fun t => (t.status, t.trace, t.protoVer, t.port)) (step (stateS [.reset]))
    = some (0, [.close], 47, 25565) := by decide

/-- The fetch the host uses: the very next step runs the command, from a BUSY state too. -/
theorem test_withFetchWord : field State.vlen (step (State.reset.withFetchWord 32 1)) = some 1 ∧
    field State.vlen (step ((stateS []).withFetchWord 32 1)) = some 1 := by decide

/-! ## Witnesses: for each statement with hypotheses, a state and operands that meet them, each clause at a boundary -/

theorem witness_DecodeAnswersExactlyTheEncoding : decode 0x00000030 = .ok .hsStart ∧ (0x00000030 : Word) = encode .hsStart := by decide

theorem witness_OpcodeMap : (0x00000025 : Word).extractLsb' 0 8 ∉ definedOpcodes := by decide

theorem witness_ExecuteClassifiesEveryWord :
    (0xFFFFFFFF : Word).extractLsb' 0 8 ∉ definedOpcodes ∧
    ((0x80000030 : Word).extractLsb' 0 8 ∈ definedOpcodes ∧ (0x80000030 : Word).extractLsb' 8 24 ≠ 0) ∧
    ((0x00000030 : Word).extractLsb' 0 8 ∈ definedOpcodes ∧ (0x00000030 : Word).extractLsb' 8 24 = 0) := by decide

theorem witness_StepRunsDecodedCommand : (builderState 0 0).busy = false ∧ (3 : Half) &&& 0xFFFC = 0 ∧
    Instr.wellFormed .fbWstr = true ∧ decode 0x15 = .ok .fbWstr ∧
    (State.inputs { builderState 0 0 with inputs := [.write32 3 0x15] } = .write32 3 0x15 :: []) ∧
    (0xFF : Word).extractLsb' 0 8 ∉ definedOpcodes ∧
    (0x100 ||| 0x15 : Word).extractLsb' 0 8 ∈ definedOpcodes ∧ (0x100 ||| 0x15 : Word).extractLsb' 8 24 ≠ 0 := by decide

theorem witness_CommandRejectedWhileBusy : (stateS [.write32 0 1]).inputs = .write32 0 1 :: [] ∧ (0 : Half) &&& 0xFFFC = 0 ∧
    (stateS [.write32 0 1]).busy = true := by decide

theorem witness_HostWritesIgnoredWhileBusy :
    ((stateS [.write32 4 9]).inputs = .write32 4 9 :: [] ∧ (4 : Half) &&& 0xFFFC ≠ 0 ∧ (stateS [.write32 4 9]).busy = true) ∧
    ((stateS [.tick]).busy = true ∧ (∀ rest, (stateS [.tick]).inputs ≠ .reset :: rest) ∧ ∃ t, step (stateS [.tick]) = .next t) :=
  ⟨by decide, by decide, fun rest h => (by cases h), _, rfl⟩

theorem witness_HostReadChangesNothing : (stateS [.read32 0x000B]).inputs = .read32 0x000B :: [] := by decide

/-- A write of `v` at `off`, scheduled on a block that is not BUSY. -/
def writeState (off : Half) (v : Word) : State := { State.reset with inputs := [.write32 off v] }

theorem writeState_premises (off : Half) (v : Word) :
    (writeState off v).inputs = .write32 off v :: [] ∧ (writeState off v).busy = false := ⟨rfl, rfl⟩

/-- The first clause of the writes and the last, each at a byte offset that is not the word's own. -/
theorem witness_RegisterMapReadsAndStores :
    ((writeState 0x0007 9).inputs = .write32 0x0007 9 :: [] ∧ (writeState 0x0007 9).busy = false) ∧
    (0x0007 : Half) &&& 0xFFFC = 0x0004 ∧ (0x0033 : Half) &&& 0xFFFC = 0x0030 ∧
    (0x0057 : Half) &&& 0xFFFC ∈ ([0x0008, 0x000C, 0x0010, 0x001C, 0x0034, 0x0038, 0x003C, 0x0040, 0x0044, 0x0048, 0x004C, 0x0050,
      0x0054] : List Half) := ⟨writeState_premises _ _, by decide⟩

/-- StrWindowReadsAndWrites, RxWindowReadsAndWrites and TxWindowShowsTheFrame: the last word of each window. -/
theorem witness_windows :
    ((writeState 0x01FF 9).inputs = .write32 0x01FF 9 :: [] ∧ (writeState 0x01FF 9).busy = false) ∧
    (63 < 64 ∧ ((0x01FF : Half) &&& 0xFFFC).toNat = 0x0100 + 4 * 63) ∧
    (8191 < 8192 ∧ ((0xFFFF : Half) &&& 0xFFFC).toNat = 0x8000 + 4 * 8191) ∧
    (255 < 256 ∧ ((0x07FF : Half) &&& 0xFFFC).toNat = 0x0400 + 4 * 255) := ⟨writeState_premises _ _, by decide⟩

/-- TxWindowShowsTheFrame: the frame's last byte, and the first past it. -/
theorem witness_TxWindowShowsTheFrame : (sendState 0 []).frameValid = true ∧ 4 * 1 + 3 < (sendState 0 []).txFrameLen.toNat ∧
    ¬ 4 * 2 + 0 < (sendState 0 []).txFrameLen.toNat ∧ 4 * 0 + 0 < (sendState 0 []).plen.toNat := by decide

theorem witness_UnmappedWordsReadZeroAndIgnoreWrites :
    ((writeState 0x7FFF 9).inputs = .write32 0x7FFF 9 :: [] ∧ (writeState 0x7FFF 9).busy = false) ∧
    (0x0058 ≤ (0x0058 : Half).toNat ∧ (0x00FF : Half).toNat < 0x0100) ∧
    (0x0200 ≤ (0x0200 : Half).toNat ∧ (0x03FF : Half).toNat < 0x0400) ∧
    (0x0800 ≤ (0x0800 : Half).toNat ∧ (0x7FFF : Half).toNat < 0x8000) := ⟨writeState_premises _ _, by decide⟩

theorem witness_ResetStepRestoresResetValues : (stateS [.reset]).inputs = .reset :: [] ∧ (stateS [.reset]).busy = true := by decide

theorem witness_VencEmitsTheVarintFormat : (venc 0x10000000).length = 5 ∧ 2 ^ (7 * 4) ≤ (0x10000000 : Word).toNat ∧
    (venc 0).length = 1 := by decide

theorem witness_VencLengthTableAndRoundTrip :
    (venc 0x7F).length = 1 ∧ (venc 0x80).length = 2 ∧ (venc 0x3FFF).length = 2 ∧ (venc 0x4000).length = 3 ∧
    (venc 0x1FFFFF).length = 3 ∧ (venc 0x200000).length = 4 ∧ (venc 0xFFFFFFF).length = 4 ∧ (venc 0x10000000).length = 5 ∧
    (∃ pull : Nat → Except ErrCause Byte, ∀ k (h : k < (venc 300).length), pull k = .ok (venc 300)[k]) :=
  ⟨by decide, by decide, by decide, by decide, by decide, by decide, by decide, by decide,
    fun k => .ok ((venc 300).getD k 0), fun k h => congrArg Except.ok (List.getD_eq_getElem _ _ h)⟩

/-- Byte `k` of a list of bytes. -/
def byteList (l : List Byte) (k : Nat) : Byte := l.getD k 0

theorem witness_VdecReadsOneVarint :
    HoldsVarint (byteList [0xFF, 0xFF, 0xFF, 0xFF, 0x7F]) 4 0xFFFFFFFF ∧ HoldsVarint (byteList [0x00]) 0 0 ∧
    (∀ j, j < 4 → (byteList [0x80, 0x80, 0x80, 0x80] j).getLsbD 7 = true) ∧
    (∀ j, j < 5 → (byteList [0x80, 0x80, 0x80, 0x80, 0x80] j).getLsbD 7 = true) := by
  unfold HoldsVarint; decide

theorem witness_VdecCommandReadsTheWindow :
    HoldsVarint (State.vb { State.reset with vbytesLo := 0x000002AC }) 1 300 ∧
    (∀ j, j < 5 → (State.vb { State.reset with vbytesLo := 0x80808080, vbytesHi := 0x80 } j).getLsbD 7 = true) := by
  unfold HoldsVarint; decide

theorem witness_VdecAfterVencReproducesOperand : ∃ t, exec .venc (builderState 0 25565) = .next t := ⟨_, rfl⟩

theorem witness_appends :
    ((builderState 1021 0).txBodyLen.toNat + [(0x41 : Byte)].length ≤ 1022 ∧
      1022 < (builderState 1022 0).txBodyLen.toNat + [(0x41 : Byte)].length) ∧
    ((builderState 1021 0).txBodyLen.toNat < 1022 ∧ 1022 ≤ (builderState 1022 0).txBodyLen.toNat) ∧
    (256 < (State.strLen { builderState 0 0 with strLen := 257 }).toNat ∧
      (State.strLen { builderState 0 0 with strLen := 256 }).toNat ≤ 256) ∧
    ((builderState 1020 0).txBodyLen.toNat + (builderState 1020 0).strLen.toNat ≤ 1022 ∧
      1022 < (builderState 1021 0).txBodyLen.toNat + (builderState 1021 0).strLen.toNat) ∧
    ((builderState 1018 0).txBodyLen.toNat + (venc 0x0FFFFFFF).length ≤ 1022 ∧
      1022 < (builderState 1018 0).txBodyLen.toNat + (venc 0x10000000).length) ∧
    ((builderState 1020 0).txBodyLen.toNat + 2 ≤ 1022 ∧ 1022 < (builderState 1021 0).txBodyLen.toNat + 2) ∧
    ((builderState 1019 0).txBodyLen.toNat + (venc 2).length + (builderState 1019 0).strLen.toNat ≤ 1022 ∧
      1022 < (builderState 1020 0).txBodyLen.toNat + (venc 2).length + (builderState 1020 0).strLen.toNat) := by decide

theorem witness_FbFinishAssemblesTheFrame : (builderState 1022 0).txBodyLen.toNat ≤ 1022 := by decide

theorem witness_FrameLengthLaw : (venc 0xFFFFFFFF).length + (List.flatten [[0x61], [], [0x62, (0x63 : Byte)]]).length ≤ 1022 := by
  decide

theorem witness_FpLoadBuildsTheReader : (readerState 0 32768).operand.toNat ≤ 32768 ∧ 32768 < (readerState 0 32769).operand.toNat := by
  decide

theorem witness_EmptyReaderFailsEveryReadOfAByte : State.reset.rxFrameLen = 0 ∧ State.reset.rxCursor = 0 ∧ State.reset.operand = 0 ∧
    (State.operand { State.reset with operand := 1 }) ≠ 0 := by decide

theorem witness_FpRbyteReadsOneByte : (readerState 3 0).rxCursor.toNat < (readerState 3 0).rxFrameLen.toNat ∧
    (readerState 4 0).rxFrameLen.toNat ≤ (readerState 4 0).rxCursor.toNat := by decide

/-- FpRbytesReturnsTheSpan and FpRstrReturnsTheSpan. -/
theorem witness_spans : (readerState 2 2).rxCursor.toNat + (readerState 2 2).operand.toNat ≤ (readerState 2 2).rxFrameLen.toNat ∧
    (readerState 2 3).rxFrameLen.toNat < (readerState 2 3).rxCursor.toNat + (readerState 2 3).operand.toNat ∧
    (readerState 2 3).rxCursor.toNat ≤ (readerState 2 3).rxFrameLen.toNat := by decide

/-- RX holds the bytes `l`, the reader is over all of them. -/
def rxState (l : List Host.Cell) (n : Half) : State := { State.reset with rx := l, rxFrameLen := n }

theorem witness_FpRvarintReadsAVarint :
    (HoldsVarint (fun j => (rxState [(0, 0x80), (1, 0x00)] 2).byteAt .rx (0 + j)) 1 0 ∧ 0 + 1 < 2) ∧
    ((∀ j, j < 4 → ((rxState [(0, 0x80), (1, 0x80), (2, 0x80), (3, 0x80)] 4).byteAt .rx (0 + j)).getLsbD 7 = true) ∧
      (rxState [(0, 0x80), (1, 0x80), (2, 0x80), (3, 0x80)] 4).rxFrameLen.toNat ≤ 0 + 4) ∧
    ((∀ j, j < 5 → ((rxState [(0, 0x80), (1, 0x80), (2, 0x80), (3, 0x80), (4, 0x80)] 5).byteAt .rx (0 + j)).getLsbD 7 = true) ∧
      0 + 5 ≤ (rxState [(0, 0x80), (1, 0x80), (2, 0x80), (3, 0x80), (4, 0x80)] 5).rxFrameLen.toNat) := by
  unfold HoldsVarint; decide

theorem witness_ShortCommandErrorChangesOnlyErr : Instr.fbWbyte ≠ .hsStart ∧ (builderState 1022 0).errCode = 0 ∧
    ∃ t, exec .fbWbyte (builderState 1022 0) = .next t ∧ t.errCode ≠ 0 := ⟨by decide, by decide, _, rfl, by decide⟩

theorem witness_CommandsKeepBufferBytes :
    (Instr.hsStart ∈ [Instr.venc, .vdec, .fbReset, .fbFinish, .fpLoad, .fpRbyte, .fpRbytes, .fpRvarint, .fpRstr, .hsStart] ∧
      ∃ t, exec .hsStart (builderState 0 0) = .next t) ∧
    (Instr.fbWstr ∈ [Instr.fbWbyte, .fbWbytes, .fbWvarint, .fbWu16be, .fbWstr] ∧
      ∃ t, exec .fbWstr (builderState 0 0) = .next t ∧ t.txBodyLen = 3) :=
  ⟨⟨by decide, _, rfl⟩, by decide, _, rfl, by decide⟩

/-- CommandCompletion and HsStartBeginsOrFailsTheRun. -/
theorem witness_CommandCompletion : Instr.venc ≠ .hsStart ∧ 256 < (State.strLen { State.reset with strLen := 257 }).toNat ∧
    (State.strLen { State.reset with strLen := 256 }).toNat ≤ 256 := by decide

theorem witness_ConnOkBuildsTheHandshakeFrame : (connectingState [.connOk]).inputs = .connOk :: [] ∧
    (connectingState [.connOk]).phase = .connecting ∧ (State.strLen { connectingState [.connOk] with strLen := 256 }).toNat ≤ 256 := by
  decide

theorem witness_FailureEventsEndTheRun :
    ((connectingState [.connFail]).inputs = .connFail :: [] ∧ (connectingState [.connFail]).phase = .connecting) ∧
    ((sendState 0 [.ioErr]).inputs = .ioErr :: [] ∧ (sendState 0 [.ioErr]).phase = .sendHs) ∧
    ((stateS [.rxEos]).inputs = .rxEos :: [] ∧ (stateS [.rxEos]).phase = .recvLen) := by decide

/-- The Status Request with its first byte gone (V-HS-33). -/
def sendSrState : State := { stateS [.txAccept] with fsm := .handshakeSent, phase := .sendSr, txSent := 1 }

theorem witness_TxAcceptSendsTheNextByte :
    ((sendState 6 [.txAccept]).inputs = .txAccept :: [] ∧ (sendState 6 [.txAccept]).phase = .sendHs ∧
      (sendState 6 [.txAccept]).txSent.toNat + 1 < (sendState 6 [.txAccept]).txFrameLen.toNat) ∧
    ((sendState 7 [.txAccept]).inputs = .txAccept :: [] ∧ (sendState 7 [.txAccept]).phase = .sendHs ∧
      (sendState 7 [.txAccept]).txSent.toNat + 1 = (sendState 7 [.txAccept]).txFrameLen.toNat) ∧
    (sendSrState.inputs = .txAccept :: [] ∧ sendSrState.phase = .sendSr ∧
      sendSrState.txSent.toNat + 1 = sendSrState.txFrameLen.toNat) := by decide

/-- Eight acceptances, then a tick. -/
def acceptances : List Input := List.append (List.replicate 8 Input.txAccept) [Input.tick]

theorem witness_HandshakeFrameGoesOutInOrder : (sendState 0 acceptances).phase = .sendHs ∧ (sendState 0 acceptances).txSent = 0 ∧
    0 < (sendState 0 acceptances).txFrameLen.toNat ∧ (sendState 0 acceptances).txFrameLen.toNat = 8 ∧
    (sendState 0 acceptances).inputs = acceptances := by decide

/-- RxByteDecodesTheLengthPrefix: a byte `b` with the count at `c` and the accumulator at `a`, `L` after it (V-HS-10 to V-HS-12). -/
theorem witness_RxByteDecodesTheLengthPrefix :
    ((stateS [.rxByte 0x80]).inputs = .rxByte 0x80 :: [] ∧ (stateS [.rxByte 0x80]).phase = .recvLen ∧ (0 : BitVec 3).toNat ≤ 4) ∧
    ((0x80 : Byte).getLsbD 7 = true ∧ (3 : BitVec 3).toNat < 4 ∧ (4 : BitVec 3).toNat = 4) ∧
    ((0x02 : Byte).getLsbD 7 = false ∧
      32768 < ((1 : Word) ||| (((0x02 : Byte).extractLsb' 0 7).setWidth 32 <<< (7 * (2 : BitVec 3).toNat))).toNat ∧
      0 < ((0 : Word) ||| (((0x02 : Byte).extractLsb' 0 7).setWidth 32 <<< (7 * (2 : BitVec 3).toNat))).toNat ∧
      ((0 : Word) ||| (((0x02 : Byte).extractLsb' 0 7).setWidth 32 <<< (7 * (2 : BitVec 3).toNat))).toNat ≤ 32768) ∧
    ((0x00 : Byte).getLsbD 7 = false ∧
      ((0 : Word) ||| (((0x00 : Byte).extractLsb' 0 7).setWidth 32 <<< (7 * (0 : BitVec 3).toNat))) = 0) := by decide

/-- RECV_BODY with two of `n` bytes received (V-HS-1, V-HS-2). -/
def bodyState (n : Half) : State :=
  { stateS [.rxByte 0x41] with phase := .recvBody, rx := [(0, 0x00), (1, 0x01)], rxFrameLen := n, rxRcvd := 2 }

theorem witness_RxByteStoresTheBody : (bodyState 3).inputs = .rxByte 0x41 :: [] ∧ (bodyState 3).phase = .recvBody ∧
    (bodyState 3).rxRcvd.toNat < (bodyState 3).rxFrameLen.toNat ∧ (bodyState 32768).rxFrameLen.toNat ≤ 32768 ∧
    (bodyState 3).rxRcvd.toNat + 1 = (bodyState 3).rxFrameLen.toNat ∧
    (bodyState 4).rxRcvd.toNat + 1 < (bodyState 4).rxFrameLen.toNat := by decide

/-- ResponseParse, clause by clause: V-HS-5, an overlong packetID, V-HS-8, V-HS-6, V-HS-13, V-HS-7 and V-HS-1. -/
theorem witness_ResponseParse :
    ((rxState [] 0).rxFrameLen.toNat ≤ 0) ∧
    ((∀ j, j < 5 → ((rxState [(0, 0x80), (1, 0x80), (2, 0x80), (3, 0x80), (4, 0x80)] 5).byteAt .rx j).getLsbD 7 = true) ∧
      5 ≤ (rxState [(0, 0x80), (1, 0x80), (2, 0x80), (3, 0x80), (4, 0x80)] 5).rxFrameLen.toNat) ∧
    (HoldsVarint (fun j => (rxState [(0, 0x01)] 2).byteAt .rx j) 0 1 ∧ 0 < (rxState [(0, 0x01)] 2).rxFrameLen.toNat ∧
      (1 : Word) ≠ 0) ∧
    (HoldsVarint (fun j => (rxState [(0, 0x00)] 1).byteAt .rx j) 0 0 ∧ (rxState [(0, 0x00)] 1).rxFrameLen.toNat ≤ 0 + 1 + 0) ∧
    ((∀ j, j < 5 → ((rxState [(0, 0x00), (1, 0x80), (2, 0x80), (3, 0x80), (4, 0x80), (5, 0x80)] 6).byteAt .rx (0 + 1 + j)).getLsbD 7
        = true) ∧ 0 + 6 ≤ (rxState [(0, 0x00), (1, 0x80), (2, 0x80), (3, 0x80), (4, 0x80), (5, 0x80)] 6).rxFrameLen.toNat) ∧
    (HoldsVarint (fun j => (rxState [(0, 0x00), (1, 0x02), (2, 0x41)] 3).byteAt .rx (0 + 1 + j)) 0 2 ∧
      (rxState [(0, 0x00), (1, 0x02), (2, 0x41)] 3).rxFrameLen.toNat < 0 + 0 + 2 + (2 : Word).toNat) ∧
    (HoldsVarint (fun j => (rxState [(0, 0x00), (1, 0x01), (2, 0x41)] 3).byteAt .rx (0 + 1 + j)) 0 1 ∧
      0 + 0 + 2 + (1 : Word).toNat ≤ (rxState [(0, 0x00), (1, 0x01), (2, 0x41)] 3).rxFrameLen.toNat) := by
  unfold HoldsVarint; decide

/-- V-HS-2: the JSON "A" and one trailing byte, then a tick. -/
def responseBody : List Byte := [0x00, 0x01, 0x41, 0x42]

def response : List Input := [.rxByte 0x04, .rxByte 0x00, .rxByte 0x01, .rxByte 0x41, .rxByte 0x42, .tick]

theorem witness_StatusResponseIsReceivedWhole :
    (stateS response).phase = .recvLen ∧ (stateS response).lacc = 0 ∧ (stateS response).lcnt = 0 ∧
    responseBody = List.append [0x00] (List.append (venc (BitVec.ofNat 32 1)) [0x41, 0x42]) ∧ responseBody.length ≤ 32768 ∧
    (stateS response).inputs =
      List.append ((List.append (venc (BitVec.ofNat 32 responseBody.length)) responseBody).map Input.rxByte) [Input.tick] := by
  decide

theorem witness_TickCountsTheWait : (connectingState [.tick]).inputs = .tick :: [] ∧ (connectingState [.tick]).phase = .connecting ∧
    (2 : Word).toNat < (connectingState [.tick]).connectTimeout.toNat ∧
    (connectingState [.tick]).connectTimeout.toNat ≤ (3 : Word).toNat ∧ (stateS [.tick]).phase = .recvLen ∧
    (9 : Word).toNat < (stateS [.tick]).readTimeout.toNat ∧ (stateS [.tick]).readTimeout.toNat ≤ (10 : Word).toNat ∧
    (sendState 0 [.tick]).phase = .sendHs := by decide

/-- Some ticks, then end-of-stream. -/
def ticks (n : Nat) : List Input := List.append (List.replicate n Input.tick) [Input.rxEos]

theorem witness_WaitsEndWithinBoundedTicks :
    ((connectingState (ticks 3)).phase = .connecting ∧ (connectingState (ticks 3)).inputs = ticks 3 ∧
      3 = max ((connectingState (ticks 3)).connectTimeout.toNat - (connectingState (ticks 3)).timer.toNat) 1) ∧
    ((stateS (ticks 10)).phase = .recvLen ∧ (stateS (ticks 10)).inputs = ticks 10 ∧
      10 = max ((stateS (ticks 10)).readTimeout.toNat - (stateS (ticks 10)).timer.toNat) 1) := by decide

theorem witness_EventsStepExactlyWhenEnabled : (stateS [.rxEos]).inputs = .rxEos :: [] ∧ (stateS [.rxEos]).phase = .recvLen ∧
    (stateS [.txAccept]).inputs = .txAccept :: [] := by decide

theorem witness_CloseOnEveryExit :
    (∃ t, step (stateS [.rxEos]) = .next t ∧ (stateS [.rxEos]).busy = true ∧ t.busy = false ∧ t.phase = .done) ∧
    (∃ t, step { State.reset with strLen := 257, inputs := [.write32 0 0x30] } = .next t ∧ t.phase = .done) :=
  ⟨⟨_, rfl, by decide, by decide, by decide⟩, _, rfl, by decide⟩

/-- FsmAndPhaseFollowTheTable and SoundStatesStaySound: a sound state in the middle of a run whose next step changes PHASE. -/
theorem witness_sound_run : Inv (stateS [.rxEos]) ∧ ∃ t, step (stateS [.rxEos]) = .next t ∧ t.phase ≠ (stateS [.rxEos]).phase := by
  refine ⟨?_, _, rfl, by decide⟩
  constructor <;> decide

/-- FsmAndPhaseFollowTheTable: a sound state whose next step is the last byte of a response that parses (V-HS-1). -/
theorem witness_sound_response : Inv (bodyState 3) ∧ ∃ t, step (bodyState 3) = .next t ∧ t.fsm = .responseReceived := by
  refine ⟨?_, _, rfl, by decide⟩
  constructor <;> decide

theorem witness_OutputTraceOnlyGrows : ∃ t, step (sendState 0 [.txAccept]) = .next t ∧ t.trace = [.txByte 0x07] := ⟨_, rfl, by decide⟩

theorem witness_ErrIsWrittenByNothingElse : ∃ t, step (stateS [.ioErr]) = .next t ∧ t.errCode ≠ (stateS [.ioErr]).errCode :=
  ⟨_, rfl, by decide⟩

theorem witness_ErrHoldsListedPairs : errListed (stateS [.ioErr]).errCode (stateS [.ioErr]).errSub = true ∧
    ∃ t, step (stateS [.ioErr]) = .next t ∧ t.errCode = 1 := ⟨by decide, _, rfl, by decide⟩

theorem witness_BuffersStayCanonical : BuffersWf (bodyState 4) ∧ ∃ t, step (bodyState 4) = .next t ∧ t.rx.length = 3 :=
  ⟨by unfold BuffersWf; decide, _, rfl, by decide⟩

end Sys2Proof.Tests
end

/-! Which buffer bytes a command can change (spec/00_scope.md R11): the commands that store nothing keep the three buffers as
they are, and the five appending commands leave either ERR alone or one append (spec/42_frame_builder.md R100). -/

namespace Sys2Proof.Machine

open Sys2Proof

/-- A short command leaves ERR alone or its own writes (R171): what holds of both holds of what it leaves. -/
theorem State.settle_of_raise_of_ok {P : State → Prop} {s : State} {r : Except ErrCause State}
    (hraise : ∀ e, P (s.raise e)) (hok : ∀ t, r = .ok t → P t) : P (s.settle r) := by
  cases r with
  | error e => exact hraise e
  | ok t => exact hok t rfl

/-! ### The commands that store nothing -/

/-- `t` has the written bytes and the draw of `s`, which is all a buffer byte is read from (R190). -/
structure KeepsBuffers (s t : State) : Prop where
  str : t.str = s.str
  body : t.body = s.body
  rx : t.rx = s.rx
  draws : t.draws = s.draws

theorem KeepsBuffers.sameBytes {s t : State} (h : KeepsBuffers s t) (b : Config.Buffer) : SameBytes b s t := by
  have hbuf : t.buffer b = s.buffer b := by
    cases b with
    | str => exact h.str
    | body => exact h.body
    | rx => exact h.rx
  exact State.byteAt_congr hbuf h.draws

theorem keepsBuffers_raise (s : State) (e : ErrCause) : KeepsBuffers s (s.raise e) := ⟨rfl, rfl, rfl, rfl⟩

theorem keepsBuffers_settle {s : State} {r : Except ErrCause State} (hok : ∀ t, r = .ok t → KeepsBuffers s t) :
    KeepsBuffers s (s.settle r) :=
  State.settle_of_raise_of_ok (keepsBuffers_raise s) hok

theorem keepsBuffers_decodeWindow {s t : State} (h : s.decodeWindow = .ok t) : KeepsBuffers s t := by
  unfold State.decodeWindow at h
  split at h
  · cases h
  · cases h; exact ⟨rfl, rfl, rfl, rfl⟩

theorem keepsBuffers_loadReader {s t : State} (h : s.loadReader = .ok t) : KeepsBuffers s t := by
  unfold State.loadReader at h
  split_ifs at h
  cases h; exact ⟨rfl, rfl, rfl, rfl⟩

theorem keepsBuffers_readByte {s t : State} (h : s.readByte = .ok t) : KeepsBuffers s t := by
  unfold State.readByte at h
  split at h
  · cases h
  · cases h; exact ⟨rfl, rfl, rfl, rfl⟩

theorem keepsBuffers_readSpan {s t : State} {n : Nat} (h : s.readSpan n = .ok t) : KeepsBuffers s t := by
  rw [State.readSpan_eq] at h
  split_ifs at h
  cases h; exact ⟨rfl, rfl, rfl, rfl⟩

theorem keepsBuffers_readVarint {s t : State} (h : s.readVarint = .ok t) : KeepsBuffers s t := by
  obtain ⟨v, k, -, -, -, -, rfl, -⟩ := State.readVarint_ok h
  exact ⟨rfl, rfl, rfl, rfl⟩

theorem keepsBuffers_exec {i : Instr} {s t : State}
    (hi : i ∈ [Instr.venc, .vdec, .fbReset, .fbFinish, .fpLoad, .fpRbyte, .fpRbytes, .fpRvarint, .fpRstr, .hsStart])
    (h : exec i s = .next t) : KeepsBuffers s t := by
  cases i with
  | fbWbyte | fbWbytes | fbWvarint | fbWu16be | fbWstr => simp at hi
  | venc | fbReset | fbFinish => cases h; exact ⟨rfl, rfl, rfl, rfl⟩
  | vdec => cases h; exact keepsBuffers_settle fun _ => keepsBuffers_decodeWindow
  | fpLoad => cases h; exact keepsBuffers_settle fun _ => keepsBuffers_loadReader
  | fpRbyte => cases h; exact keepsBuffers_settle fun _ => keepsBuffers_readByte
  | fpRbytes | fpRstr => cases h; exact keepsBuffers_settle fun _ => keepsBuffers_readSpan
  | fpRvarint => cases h; exact keepsBuffers_settle fun _ => keepsBuffers_readVarint
  | hsStart =>
    obtain ⟨-, rfl⟩ | ⟨-, rfl⟩ := exec_hsStart h
    · exact ⟨rfl, rfl, rfl, rfl⟩
    · exact ⟨rfl, rfl, rfl, rfl⟩

/-! ### The appending commands -/

theorem State.append_ok {s t : State} {bs : List Byte} (h : s.append bs = .ok t) :
    s.txBodyLen.toNat + bs.length ≤ 1022 ∧ t = s.appended bs := by
  rw [State.append_eq] at h
  split_ifs at h with hfull
  cases h; exact ⟨by omega, rfl⟩

theorem State.appendRun_ok {s t : State} (h : s.appendRun = .ok t) : ∃ bs, s.append bs = .ok t := by
  unfold State.appendRun at h
  split at h
  · cases h
  · exact ⟨_, h⟩

theorem State.appendString_ok {s t : State} (h : s.appendString = .ok t) : ∃ bs, s.append bs = .ok t := by
  unfold State.appendString at h
  split at h
  · cases h
  · exact ⟨_, h⟩

/-- The byte frame of a command that appends: BODY can differ from `s` to `t` only in the bytes the body grew by. -/
def ChangesOnlyAppendedBytes (s t : State) : Prop :=
  SameBytes .str s t ∧ SameBytes .rx s t ∧ s.txBodyLen.toNat ≤ t.txBodyLen.toNat ∧
  SameBytesOutside .body s.txBodyLen.toNat (t.txBodyLen.toNat - s.txBodyLen.toNat) s t

theorem changesOnlyAppendedBytes_raise (s : State) (e : ErrCause) : ChangesOnlyAppendedBytes s (s.raise e) :=
  have hkeep := keepsBuffers_raise s e
  ⟨hkeep.sameBytes .str, hkeep.sameBytes .rx, le_rfl, fun i _ => hkeep.sameBytes .body i⟩

theorem changesOnlyAppendedBytes_append {s t : State} {bs : List Byte} (h : s.append bs = .ok t) :
    ChangesOnlyAppendedBytes s t := by
  obtain ⟨hfits, rfl⟩ := State.append_ok h
  have hlen := State.toNat_appended_txBodyLen hfits
  refine ⟨State.byteAt_str_appended s bs, State.byteAt_rx_appended s bs, by omega, fun i hi => ?_⟩
  exact State.byteAt_appended_outside s bs i (by omega)

theorem changesOnlyAppendedBytes_settle {s : State} {r : Except ErrCause State}
    (hok : ∀ t, r = .ok t → ∃ bs, s.append bs = .ok t) : ChangesOnlyAppendedBytes s (s.settle r) :=
  State.settle_of_raise_of_ok (changesOnlyAppendedBytes_raise s) fun t ht =>
    have ⟨_, happend⟩ := hok t ht
    changesOnlyAppendedBytes_append happend

theorem changesOnlyAppendedBytes_exec {i : Instr} {s t : State}
    (hi : i ∈ [Instr.fbWbyte, .fbWbytes, .fbWvarint, .fbWu16be, .fbWstr]) (h : exec i s = .next t) :
    ChangesOnlyAppendedBytes s t := by
  cases i with
  | fbWbyte | fbWvarint | fbWu16be => cases h; exact changesOnlyAppendedBytes_settle fun _ ht => ⟨_, ht⟩
  | fbWbytes => cases h; exact changesOnlyAppendedBytes_settle fun _ => State.appendRun_ok
  | fbWstr => cases h; exact changesOnlyAppendedBytes_settle fun _ => State.appendString_ok
  | venc | vdec | fbReset | fbFinish | fpLoad | fpRbyte | fpRbytes | fpRvarint | fpRstr | hsStart => simp at hi

/-- Settles O36, by the case of the command: the buffers are kept whole, or one append is all that was stored. -/
theorem commandsKeepBufferBytes : Obligations.CommandsKeepBufferBytes := by
  unfold Obligations.CommandsKeepBufferBytes
  refine ⟨fun i s t hi h => ?_, fun i s t hi h => changesOnlyAppendedBytes_exec hi h⟩
  have hkeep := keepsBuffers_exec hi h
  exact ⟨hkeep.sameBytes .str, hkeep.sameBytes .body, hkeep.sameBytes .rx⟩

end Sys2Proof.Machine

/-! What every step keeps (spec/10_state.md R36 to R38, R41): the canonical form of the three buffers, operation by operation. -/

namespace Sys2Proof.Machine

open Sys2Proof

/-! ### The canonical form of the buffers -/

theorem BuffersWf.appended {s : State} (h : BuffersWf s) (bs : List Byte) : BuffersWf (s.appended bs) :=
  have ⟨hstr, hbody, hrx⟩ := h
  ⟨hstr, Mem.wf_writeRun _ bs hbody, hrx⟩

theorem BuffersWf.writeStr {s : State} (h : BuffersWf s) (a : Nat) (bs : List Byte) : BuffersWf (s.writeStr a bs) :=
  have ⟨hstr, hbody, hrx⟩ := h
  ⟨Mem.wf_writeRun a bs hstr, hbody, hrx⟩

theorem BuffersWf.writeRx {s : State} (h : BuffersWf s) (a : Nat) (bs : List Byte) : BuffersWf (s.writeRx a bs) :=
  have ⟨hstr, hbody, hrx⟩ := h
  ⟨hstr, hbody, Mem.wf_writeRun a bs hrx⟩

theorem buffersWf_reset : BuffersWf State.reset := ⟨Mem.wf_reset .str, Mem.wf_reset .body, Mem.wf_reset .rx⟩

/-- Of the commands, only an append writes a buffer. -/
theorem BuffersWf.exec {i : Instr} {s t : State} (h : BuffersWf s) (ht : exec i s = .next t) : BuffersWf t := by
  by_cases hi : i = .hsStart
  · subst hi
    obtain ⟨-, rfl⟩ | ⟨-, rfl⟩ := exec_hsStart ht
    · exact h
    · exact h
  · obtain ⟨e, rfl⟩ | rfl | ⟨v, n, -, rfl⟩ | rfl | ⟨bs, -, rfl⟩ | rfl | ⟨-, rfl⟩ | ⟨b, -, rfl⟩ | ⟨n, -, rfl⟩ |
      ⟨v, k, -, rfl⟩ := exec_short hi ht
    · exact h
    · exact h
    · exact h
    · exact h
    · exact h.appended bs
    · exact h
    · exact h
    · exact h
    · exact h
    · exact h

theorem BuffersWf.execute {w : Word} {s t : State} (h : BuffersWf s) (ht : execute w s = .next t) : BuffersWf t := by
  obtain ⟨i, -, hi⟩ | rfl | rfl := execute_next ht
  · exact h.exec hi
  · exact h
  · exact h

theorem BuffersWf.writeReg {s : State} (h : BuffersWf s) (r : Reg) (v : Word) : BuffersWf (s.writeReg r v) := by
  cases r <;> exact h

theorem BuffersWf.busWrite {off : Half} {v : Word} {s t : State} (h : BuffersWf s) (ht : busWrite off v s = .next t) :
    BuffersWf t := by
  obtain ⟨-, -, rfl⟩ | ⟨-, -, hx⟩ | ⟨-, -, rfl⟩ | ⟨-, -, rfl⟩ := busWrite_next ht
  · exact h
  · exact BuffersWf.execute (s := s.accept) h hx
  · exact h
  · obtain ⟨r, hw⟩ | ⟨a, hw⟩ | ⟨a, hw⟩ := writeWord_cases s (wordOffset off) v
    · rw [hw]; exact h.writeReg r v
    · rw [hw]; exact h.writeStr a _
    · rw [hw]; exact h.writeRx a _

theorem BuffersWf.connOk {s : State} (h : BuffersWf s) : BuffersWf s.connOk := by
  obtain ⟨-, e, ht⟩ | ⟨-, hbuilt, ht⟩ := s.connOk_cases
  · rw [ht]; exact h
  · obtain ⟨hstr, hbody, hrx⟩ := h
    have hwf : Mem.wf 1022 s.connOk.body = true := by
      rw [hbuilt, State.finish_body]
      exact s.wf_body_handshakeAppended hbody
    rw [ht]; exact ⟨hstr, hwf, hrx⟩

theorem BuffersWf.txAccept {s : State} (h : BuffersWf s) : BuffersWf s.txAccept := by
  obtain ⟨-, ht⟩ | ⟨-, -, -, -, hbody', ht⟩ | ⟨-, -, ht⟩ := s.txAccept_cases
  · rw [ht]; exact h
  · obtain ⟨hstr, hbody, hrx⟩ := h
    have hwf := Mem.wf_writeRun 0 [0x00] hbody
    rw [← hbody'] at hwf
    rw [ht]; exact ⟨hstr, hwf, hrx⟩
  · rw [ht]; exact h

theorem BuffersWf.complete {s : State} (h : BuffersWf s) : BuffersWf s.complete := by
  obtain ⟨r, c, e, -, ht⟩ | ⟨r, c, o, l, -, -, ht⟩ := s.complete_cases
  · rw [ht]; exact h
  · rw [ht]; exact h

theorem BuffersWf.rxLengthByte {s : State} (h : BuffersWf s) (b : Byte) : BuffersWf (s.rxLengthByte b) := by
  obtain ⟨L, c, -, -, ⟨-, -, ht⟩ | ⟨e, -, ht⟩ | ⟨-, -, ht⟩ | ⟨-, -, -, ht⟩⟩ := s.rxLengthByte_cases b
  · rw [ht]; exact h
  · rw [ht]; exact h
  · rw [ht]; exact BuffersWf.complete (s := { s with lacc := L, lcnt := c, rxFrameLen := 0, rxRcvd := 0 }) h
  · rw [ht]; exact h

theorem BuffersWf.rxBodyByte {s : State} (h : BuffersWf s) (b : Byte) : BuffersWf (s.rxBodyByte b) := by
  have hrx := h.writeRx s.rxRcvd.toNat [b]
  obtain ⟨-, ht⟩ | ⟨-, ht⟩ := s.rxBodyByte_cases b
  · rw [ht]; exact hrx
  · rw [ht]; exact BuffersWf.complete (s := { s.writeRx s.rxRcvd.toNat [b] with rxRcvd := s.rxFrameLen }) hrx

theorem BuffersWf.rxByte {s : State} (h : BuffersWf s) (b : Byte) : BuffersWf (s.rxByte b) := by
  unfold State.rxByte
  split
  · exact h.rxLengthByte b
  · exact h.rxBodyByte b

theorem BuffersWf.tick {s : State} (h : BuffersWf s) : BuffersWf s.tick := by
  obtain ⟨-, -, -, ht⟩ | ⟨-, -, ht⟩ | ⟨-, -, ht⟩ | ⟨-, -, ht⟩ | ⟨-, -, ht⟩ := s.tick_cases
  all_goals rw [ht]; exact h

theorem BuffersWf.take {i : Input} {s t : State} (h : BuffersWf s) (ht : s.take i = .next t) : BuffersWf t := by
  cases i with
  | write32 off v => exact h.busWrite ht
  | connOk => cases ht; exact h.connOk
  | txAccept => cases ht; exact h.txAccept
  | rxByte b => cases ht; exact h.rxByte b
  | tick => cases ht; exact h.tick
  | reset => cases ht; exact buffersWf_reset
  | read32 _ | connFail | rxEos | ioErr => cases ht; exact h

/-- Settles O55, by the case of the environment step: each operation stores runs of bytes, and a run keeps the form. -/
theorem buffersStayCanonical : Obligations.BuffersStayCanonical := by
  intro s t h hstep
  obtain ⟨-, rfl⟩ | ⟨i, rest, -, -, ht⟩ := step_next hstep
  · exact h
  · exact BuffersWf.take (s := { s with inputs := rest }) h ht

end Sys2Proof.Machine

/-! The invariants of spec/10_state.md R41: the clauses that bind in every phase, kept operation by operation, and what a run
adds to them in each of its phases. -/

namespace Sys2Proof.Machine

open Sys2Proof

/-! ### The clauses of every phase -/

/-- The clauses of `Inv` that bind in every phase. The others bind while a run is in progress. -/
structure StandingInv (s : State) : Prop where
  body_len : s.txBodyLen.toNat ≤ 1022
  frame_len : s.frameValid = true → s.txFrameLen.toNat = s.plen.toNat + s.txBodyLen.toNat ∧ s.txFrameLen.toNat ≤ 1024
  no_frame : s.frameValid = false → s.txFrameLen = 0
  frame_prefix : s.frameValid = true → s.pfx.take s.plen.toNat = venc (s.txBodyLen.setWidth 32)
  cursor_le : s.rxCursor.toNat ≤ s.rxFrameLen.toNat
  reader_le : s.rxFrameLen.toNat ≤ 32768
  fsm_phase : fsmFits s.fsm s.phase = true
  prefix_size : s.pfx.length = 5
  vlen_le : s.vlen.toNat ≤ 5
  plen_le : s.plen.toNat ≤ 5
  lcnt_le : s.lcnt.toNat ≤ 5
  span : s.spanOff.toNat + s.spanLen.toNat ≤ 32768

theorem Inv.standing {s : State} (h : Inv s) : StandingInv s :=
  have ⟨hcursor, hreader⟩ := h.reader
  have ⟨hvlen, hplen, hlcnt⟩ := h.counts
  { h with cursor_le := hcursor, reader_le := hreader, vlen_le := hvlen, plen_le := hplen, lcnt_le := hlcnt }

/-! ### The clauses of a run, phase by phase -/

/-- What `Inv` asks of the registers in phase `p` beyond the standing clauses and ERR 0. -/
abbrev RunClauses (s : State) (p : Phase) : Prop :=
  match p with
  | .idle | .done => True
  | .connecting => s.strLen.toNat ≤ 256
  | .sendHs | .sendSr => s.frameValid = true ∧ s.txSent.toNat < s.txFrameLen.toNat
  | .recvLen => s.rxRcvd.toNat ≤ s.rxFrameLen.toNat ∧ s.rxCursor = 0 ∧ s.lcnt.toNat ≤ 4
  | .recvBody => s.rxRcvd.toNat < s.rxFrameLen.toNat ∧ s.rxCursor = 0

/-- `Inv` put together from the standing clauses, ERR 0 during a run, and the clauses of the phase. -/
theorem StandingInv.inv {s : State} {p : Phase} (h : StandingInv s) (hp : s.phase = p)
    (herr : p.busy = true → s.errCode = 0 ∧ s.errSub = 0) (hrun : RunClauses s p) : Inv s := by
  subst hp
  exact { h with
    sending := by rintro (hp | hp) <;> (rw [hp] at hrun; exact hrun)
    reader := ⟨h.cursor_le, h.reader_le⟩
    receiving_len := fun hp => by rw [hp] at hrun; obtain ⟨hrcvd, -, -⟩ := hrun; exact hrcvd
    receiving_body := fun hp => by rw [hp] at hrun; obtain ⟨hrcvd, -⟩ := hrun; exact hrcvd
    receiving_cursor := by
      rintro (hp | hp)
      · rw [hp] at hrun; obtain ⟨-, hcursor, -⟩ := hrun; exact hcursor
      · rw [hp] at hrun; obtain ⟨-, hcursor⟩ := hrun; exact hcursor
    prefix_count := fun hp => by rw [hp] at hrun; obtain ⟨-, -, hlcnt⟩ := hrun; exact hlcnt
    address_fits := fun hp => by rw [hp] at hrun; exact hrun
    no_error_in_run := herr
    counts := ⟨h.vlen_le, h.plen_le, h.lcnt_le⟩ }

/-- With no run in progress the standing clauses are all there is. -/
theorem StandingInv.inv_of_not_busy {s : State} (h : StandingInv s) (hb : s.busy = false) : Inv s := by
  cases hp : s.phase with
  | idle | done => exact h.inv hp (by simp [Phase.busy]) trivial
  | connecting | sendHs | sendSr | recvLen | recvBody => simp [State.busy, Phase.busy, hp] at hb

/-! ### The builder's operations -/

section
variable {s : State} (h : StandingInv s)
include h

theorem StandingInv.builderReset : StandingInv s.builderReset :=
  { h with
    body_len := by simp
    frame_len := by simp
    no_frame := fun _ => rfl
    frame_prefix := by simp
    plen_le := by simp }

theorem StandingInv.appended {bs : List Byte} (hfits : s.txBodyLen.toNat + bs.length ≤ 1022) :
    StandingInv (s.appended bs) :=
  { h with
    body_len := by rw [State.toNat_appended_txBodyLen hfits]; exact hfits
    frame_len := by simp
    no_frame := fun _ => rfl
    frame_prefix := by simp }

theorem StandingInv.finish : StandingInv s.finish := by
  have hbody := h.body_len
  have hprefix := venc_bodyLen_length_le s.txBodyLen
  have hplen := s.toNat_finish_plen
  have hframe := s.toNat_finish_txFrameLen
  have hsize := h.prefix_size
  exact { h with
    frame_len := fun _ => by rw [hframe, hplen, State.finish_txBodyLen]; omega
    no_frame := by simp
    frame_prefix := fun _ => s.finish_pfx_take
    prefix_size := by simp; omega
    plen_le := by omega }

theorem StandingInv.append {t : State} {bs : List Byte} (ht : s.append bs = .ok t) : StandingInv t := by
  obtain ⟨hfits, rfl⟩ := State.append_ok ht
  exact h.appended hfits

theorem StandingInv.appendString {t : State} (ht : s.appendString = .ok t) : StandingInv t := by
  obtain ⟨bs, happend⟩ := State.appendString_ok ht
  exact h.append happend

/-- BuildHandshake is a sequence of builder operations (42_frame_builder.md R110), and each of them keeps the clauses. -/
theorem StandingInv.buildHandshake {t : State} (ht : s.buildHandshake = .ok t) : StandingInv t := by
  unfold State.buildHandshake at ht
  obtain ⟨a, ha, ht⟩ := bind_ok ht
  obtain ⟨b, hb, ht⟩ := bind_ok ht
  obtain ⟨c, hc, ht⟩ := bind_ok ht
  obtain ⟨d, hd, ht⟩ := bind_ok ht
  obtain ⟨e, he, ht⟩ := bind_ok ht
  cases ht
  exact (((((h.builderReset.append ha).append hb).appendString hc).append hd).append he).finish

end

/-! ### The commands -/

theorem toNat_ofNat_three_le {n : Nat} (h : n ≤ 5) : (BitVec.ofNat 3 n).toNat ≤ 5 := by simp; omega

/-- Every short command keeps the standing clauses. -/
theorem StandingInv.exec_short {i : Instr} {s t : State} (h : StandingInv s) (hi : i ≠ .hsStart)
    (ht : exec i s = .next t) : StandingInv t := by
  have hcursor := h.cursor_le
  have hreader := h.reader_le
  obtain ⟨e, rfl⟩ | rfl | ⟨v, n, hv, rfl⟩ | rfl | ⟨bs, hfits, rfl⟩ | rfl | ⟨hn, rfl⟩ | ⟨b, hb, rfl⟩ | ⟨n, hn, rfl⟩ |
    ⟨v, k, hv, rfl⟩ := Machine.exec_short hi ht
  · exact { h with }
  · exact { h with vlen_le := toNat_ofNat_three_le (venc_length_le _) }
  · exact { h with vlen_le := toNat_ofNat_three_le (vdec_ok_length hv).2 }
  · exact h.builderReset
  · exact h.appended hfits
  · exact h.finish
  · exact { h with
      cursor_le := Nat.zero_le _
      reader_le := by simp; omega }
  · have hlt := State.readerSource_ok hb
    exact { h with cursor_le := by simp; omega }
  · have hend : s.rxCursor.toNat + n ≤ s.rxFrameLen.toNat := by unfold State.remaining at hn; omega
    exact { h with
      cursor_le := by simp; omega
      span := by simp; omega }
  · obtain ⟨n, rfl, hlt, -⟩ := State.holdsVarint_of_vdec hv
    exact { h with cursor_le := by simp; omega }

/-- No short command moves PHASE (30_encoding.md R74). -/
theorem exec_short_phase {i : Instr} {s t : State} (hi : i ≠ .hsStart) (ht : exec i s = .next t) :
    t.phase = s.phase := by
  obtain ⟨e, rfl⟩ | rfl | ⟨v, n, -, rfl⟩ | rfl | ⟨bs, -, rfl⟩ | rfl | ⟨-, rfl⟩ | ⟨b, -, rfl⟩ | ⟨n, -, rfl⟩ |
    ⟨v, k, -, rfl⟩ := exec_short hi ht
  all_goals rfl

/-! ### The ends of a run -/

theorem StandingInv.inv_fail {s : State} (h : StandingInv s) (e : ErrCause) : Inv (s.fail e) :=
  StandingInv.inv_of_not_busy { h with fsm_phase := rfl } rfl

theorem StandingInv.inv_success {s : State} (h : StandingInv s) : Inv s.success :=
  StandingInv.inv_of_not_busy { h with fsm_phase := rfl } rfl

/-- The response parse ends the run with the cursor and the span inside the reader (43_frame_parser.md R130). -/
theorem StandingInv.inv_complete {s : State} (h : StandingInv s) : Inv s.complete := by
  have hreader := h.reader_le
  obtain ⟨r, c, e, hc, ht⟩ | ⟨r, c, o, l, hc, hspan, ht⟩ := s.complete_cases
  · rw [ht]
    refine StandingInv.inv_fail ?_ e
    exact { h with cursor_le := hc }
  · rw [ht]
    exact StandingInv.inv_success { h with
      cursor_le := hc
      span := hspan.trans hreader }

/-! ### The host's accesses and the reset -/

/-- HS_START, as an accepted command, starts a run with ERR 0 or fails it (44_handshake_fsm.md R142). -/
theorem StandingInv.inv_hsStart {s t : State} (h : StandingInv s) (herr : s.errCode = 0 ∧ s.errSub = 0)
    (ht : exec .hsStart s = .next t) : Inv t := by
  obtain ⟨-, rfl⟩ | ⟨hstr, rfl⟩ := exec_hsStart ht
  · exact h.inv_fail _
  · exact StandingInv.inv (p := .connecting) { h with fsm_phase := rfl } rfl (fun _ => herr) hstr

theorem StandingInv.inv_exec {i : Instr} {s t : State} (h : StandingInv s) (hb : s.busy = false)
    (herr : s.errCode = 0 ∧ s.errSub = 0) (ht : exec i s = .next t) : Inv t := by
  by_cases hi : i = .hsStart
  · subst hi
    exact h.inv_hsStart herr ht
  · refine (h.exec_short hi ht).inv_of_not_busy ?_
    rw [State.busy, exec_short_phase hi ht]
    exact hb

theorem StandingInv.inv_execute {w : Word} {s t : State} (h : StandingInv s) (hb : s.busy = false)
    (herr : s.errCode = 0 ∧ s.errSub = 0) (ht : execute w s = .next t) : Inv t := by
  obtain ⟨i, -, hi⟩ | rfl | rfl := execute_next ht
  · exact h.inv_exec hb herr hi
  · exact StandingInv.inv_of_not_busy { h with } hb
  · exact StandingInv.inv_of_not_busy { h with } hb

theorem StandingInv.writeReg {s : State} (h : StandingInv s) (r : Reg) (v : Word) : StandingInv (s.writeReg r v) := by
  cases r <;> exact { h with }

/-- A stored word reaches no register that a standing clause speaks of. -/
theorem StandingInv.writeWord {s : State} (h : StandingInv s) (w : Nat) (v : Word) : StandingInv (s.writeWord w v) := by
  obtain ⟨r, hw⟩ | ⟨a, hw⟩ | ⟨a, hw⟩ := writeWord_cases s w v
  · rw [hw]; exact h.writeReg r v
  · rw [hw]; exact { h with }
  · rw [hw]; exact { h with }

theorem writeReg_phase (s : State) (r : Reg) (v : Word) : (s.writeReg r v).phase = s.phase := by
  cases r <;> rfl

theorem writeWord_phase (s : State) (w : Nat) (v : Word) : (s.writeWord w v).phase = s.phase := by
  obtain ⟨r, hw⟩ | ⟨a, hw⟩ | ⟨a, hw⟩ := writeWord_cases s w v
  · rw [hw]; exact writeReg_phase s r v
  · rw [hw]; rfl
  · rw [hw]; rfl

theorem Inv.busWrite {off : Half} {v : Word} {s t : State} (h : Inv s) (ht : busWrite off v s = .next t) : Inv t := by
  obtain ⟨-, -, rfl⟩ | ⟨-, hb, hx⟩ | ⟨-, -, rfl⟩ | ⟨-, hb, rfl⟩ := busWrite_next ht
  · exact { h with }
  · exact StandingInv.inv_execute (s := s.accept) { h.standing with } hb ⟨rfl, rfl⟩ hx
  · exact h
  · refine (h.standing.writeWord _ v).inv_of_not_busy ?_
    rw [State.busy, writeWord_phase]
    exact hb

theorem inv_reset : Inv State.reset :=
  StandingInv.inv_of_not_busy (hb := rfl)
    { body_len := by decide
      frame_len := by decide
      no_frame := by decide
      frame_prefix := by decide
      cursor_le := by decide
      reader_le := by decide
      fsm_phase := rfl
      prefix_size := rfl
      vlen_le := by decide
      plen_le := by decide
      lcnt_le := by decide
      span := by decide }

/-- Reset restores the registers and keeps PFX (log 6). -/
theorem Inv.resetStep {s : State} (h : Inv s) : Inv s.resetStep := { inv_reset with prefix_size := h.prefix_size }

/-! ### The events of a run -/

/-- ConnOk sends a frame that BuildHandshake built (44_handshake_fsm.md R143); R142's start check makes it fit. -/
theorem Inv.connOk {s : State} (h : Inv s) (hp : s.phase = .connecting) : Inv s.connOk := by
  have hstr := h.address_fits hp
  have herr := h.no_error_in_run (by rw [State.busy, hp]; rfl)
  obtain ⟨hlong, -⟩ | ⟨-, hbuilt, hframe⟩ := s.connOk_cases
  · omega
  · obtain ⟨hok, -, -⟩ := s.buildHandshake_of_strLen hstr
    have hstanding := h.standing.buildHandshake hok
    have hlen := s.handshakeAppended.toNat_finish_txFrameLen
    have hpos := venc_length_pos (s.handshakeAppended.txBodyLen.setWidth 32)
    generalize s.handshakeAppended = u at hbuilt hstanding hlen hpos
    refine StandingInv.inv (p := .sendHs) ?_ (by rw [hframe]) (fun _ => by rw [hframe]; exact herr)
      ⟨by rw [hframe], ?_⟩
    · rw [hbuilt]; exact { hstanding with fsm_phase := rfl }
    · rw [hbuilt]; show 0 < u.finish.txFrameLen.toNat; omega

/-- TxAccept leaves a byte of the frame to send, or opens the next phase (44_handshake_fsm.md R145 to R147). -/
theorem Inv.txAccept {s : State} (h : Inv s) (hp : s.phase = .sendHs ∨ s.phase = .sendSr) : Inv s.txAccept := by
  have hs := h.standing
  have herr := h.no_error_in_run (by rcases hp with hp | hp <;> (rw [State.busy, hp]; rfl))
  obtain ⟨hvalid, hsent⟩ := h.sending hp
  obtain ⟨-, hmax⟩ := h.frame_len hvalid
  obtain ⟨hmore, ht⟩ | ⟨-, -, hpfx, hsize, -, ht⟩ | ⟨-, -, ht⟩ := s.txAccept_cases
  · have hnext : (BitVec.ofNat 11 (s.txSent.toNat + 1)).toNat = s.txSent.toNat + 1 := by simp; omega
    have hne : s.txSent.toNat + 1 ≠ s.txFrameLen.toNat := fun heq => hmore (by rw [heq]; simp)
    have hlt : (BitVec.ofNat 11 (s.txSent.toNat + 1)).toNat < s.txFrameLen.toNat := by omega
    rw [ht]
    exact { h with sending := fun _ => ⟨hvalid, hlt⟩ }
  · have hfive : s.txAccept.pfx.length = 5 := by rw [hsize, h.prefix_size]
    rw [ht]
    refine StandingInv.inv (p := .sendSr) { hs with
      body_len := (by decide : (1 : BitVec 10).toNat ≤ 1022)
      frame_len := fun _ => (by decide : (2 : BitVec 11).toNat = (1 : BitVec 3).toNat + (1 : BitVec 10).toNat ∧
        (2 : BitVec 11).toNat ≤ 1024)
      no_frame := by simp
      frame_prefix := fun _ => hpfx.trans (by decide : [0x01] = venc ((1 : BitVec 10).setWidth 32))
      fsm_phase := rfl
      prefix_size := hfive
      plen_le := (by decide : (1 : BitVec 3).toNat ≤ 5) } rfl (fun _ => herr) ⟨rfl, by simp⟩
  · rw [ht]
    exact StandingInv.inv (p := .recvLen) { hs with
      cursor_le := le_rfl
      reader_le := Nat.zero_le _
      fsm_phase := rfl
      lcnt_le := Nat.zero_le _ } rfl (fun _ => herr) ⟨le_rfl, rfl, Nat.zero_le _⟩

/-- A byte in RECV_LEN is one more of at most five, or opens the body, or ends the run (43_frame_parser.md R126). -/
theorem Inv.rxLengthByte {s : State} (h : Inv s) (hp : s.phase = .recvLen) (b : Byte) : Inv (s.rxLengthByte b) := by
  have hs := h.standing
  have herr := h.no_error_in_run (by rw [State.busy, hp]; rfl)
  have hfsm := h.fsm_phase
  have hcursor := h.receiving_cursor (.inl hp)
  have hcount := h.prefix_count hp
  obtain ⟨L, c, -, hc, hcase⟩ := s.rxLengthByte_cases b
  have hcNat : c.toNat = s.lcnt.toNat + 1 := by rw [hc]; simp; omega
  have hcle : c.toNat ≤ 5 := by omega
  obtain ⟨-, hne, ht⟩ | ⟨e, -, ht⟩ | ⟨-, -, ht⟩ | ⟨-, hL, hmax, ht⟩ := hcase
  · have hfour : c.toNat ≤ 4 := by
      have : c.toNat ≠ 5 := fun heq => hne (BitVec.eq_of_toNat_eq heq)
      omega
    rw [ht]
    exact StandingInv.inv { hs with lcnt_le := hcle } hp (fun _ => herr) ⟨h.receiving_len hp, hcursor, hfour⟩
  · rw [ht]
    refine StandingInv.inv_fail ?_ e
    exact { hs with lcnt_le := hcle }
  · rw [ht]
    exact StandingInv.inv_complete { hs with
      cursor_le := by simp [hcursor]
      reader_le := Nat.zero_le _
      lcnt_le := hcle }
  · have hlen : (BitVec.ofNat 16 L.toNat).toNat = L.toNat := by simp; omega
    have hpos : 0 < L.toNat := Nat.pos_of_ne_zero fun h0 => hL (BitVec.eq_of_toNat_eq h0)
    rw [ht]
    refine StandingInv.inv (p := .recvBody) { hs with
      cursor_le := by simp [hcursor]
      reader_le := by simpa only [hlen] using hmax
      fsm_phase := by rwa [hp] at hfsm
      lcnt_le := hcle } rfl (fun _ => herr) ⟨?_, hcursor⟩
    rw [hlen]
    exact hpos

/-- A body byte that is not the last leaves one missing; the last one is parsed (43_frame_parser.md R127). -/
theorem Inv.rxBodyByte {s : State} (h : Inv s) (hp : s.phase = .recvBody) (b : Byte) : Inv (s.rxBodyByte b) := by
  have hs := h.standing
  have herr := h.no_error_in_run (by rw [State.busy, hp]; rfl)
  have hmissing := h.receiving_body hp
  have hmax := hs.reader_le
  obtain ⟨hmore, ht⟩ | ⟨-, ht⟩ := s.rxBodyByte_cases b
  · have hnext : (BitVec.ofNat 16 (s.rxRcvd.toNat + 1)).toNat = s.rxRcvd.toNat + 1 := by simp; omega
    have hne : s.rxRcvd.toNat + 1 ≠ s.rxFrameLen.toNat := fun heq => hmore (by rw [heq]; simp)
    have hlt : (BitVec.ofNat 16 (s.rxRcvd.toNat + 1)).toNat < s.rxFrameLen.toNat := by omega
    rw [ht]
    exact StandingInv.inv { hs with } hp (fun _ => herr) ⟨hlt, h.receiving_cursor (.inr hp)⟩
  · rw [ht]
    exact StandingInv.inv_complete { hs with }

theorem Inv.rxByte {s : State} (h : Inv s) (hp : s.phase = .recvLen ∨ s.phase = .recvBody) (b : Byte) :
    Inv (s.rxByte b) := by
  unfold State.rxByte
  split
  · next hlen => exact h.rxLengthByte hlen b
  · next hlen => exact h.rxBodyByte (hp.resolve_left hlen) b

/-- A tick moves TIMER alone, or ends the wait (44_handshake_fsm.md R151). -/
theorem Inv.tick {s : State} (h : Inv s) : Inv s.tick := by
  have hcounted : StandingInv { s with timer := timerNext s.timer } := { h.standing with }
  obtain ⟨-, -, -, ht⟩ | ⟨-, -, ht⟩ | ⟨-, -, ht⟩ | ⟨-, -, ht⟩ | ⟨-, -, ht⟩ := s.tick_cases
  · rw [ht]; exact h
  · rw [ht]; exact { h with }
  · rw [ht]; exact hcounted.inv_fail _
  · rw [ht]; exact { h with }
  · rw [ht]; exact hcounted.inv_fail _

theorem Inv.take {i : Input} {s t : State} (h : Inv s) (he : enabled i s.phase = true) (ht : s.take i = .next t) :
    Inv t := by
  cases i with
  | read32 off => cases ht; exact { h with }
  | write32 off v => exact h.busWrite ht
  | connOk => cases ht; exact h.connOk (by simpa [enabled] using he)
  | txAccept => cases ht; exact h.txAccept (by simpa [enabled] using he)
  | rxByte b => cases ht; exact h.rxByte (by simpa [enabled] using he) b
  | tick => cases ht; exact h.tick
  | reset => cases ht; exact h.resetStep
  | connFail | rxEos | ioErr => cases ht; exact h.standing.inv_fail _

/-- Settles O56, by the case of the environment step: each keeps the standing clauses and meets those of the phase it leaves. -/
theorem soundStatesStaySound : Obligations.SoundStatesStaySound := by
  intro s t h hstep
  obtain ⟨-, rfl⟩ | ⟨i, rest, -, he, ht⟩ := step_next hstep
  · exact h
  · exact Inv.take (s := { s with inputs := rest }) { h with } he ht

/-- Settles O57: the registers of R21, with empty buffers. -/
theorem resetStateIsSound : Obligations.ResetStateIsSound := ⟨inv_reset, buffersWf_reset, rfl⟩

end Sys2Proof.Machine

/-! The register map of spec/10_state.md R21 and the fields of STATUS (R24). -/

namespace Sys2Proof.Machine

open Sys2Proof

/-! ### The register map -/

theorem State.readWord_of_regAt {w : Nat} (s : State) (r : Reg) (h : regAt w = some r) :
    s.readWord w = s.readReg r := by
  simp only [State.readWord, h]

theorem State.writeWord_of_regAt {w : Nat} {r : Reg} (s : State) (v : Word) (h : regAt w = some r) :
    s.writeWord w v = s.writeReg r v := by
  simp only [State.writeWord, h]

/-- The step at a host write to a register's word, at any of its four byte offsets, while not BUSY (20_memory.md R51). -/
theorem step_write_register {s : State} {off w : Half} {v : Word} {rest : List Input} {r : Reg}
    (h : s.inputs = .write32 off v :: rest) (hb : s.busy = false) (hreg : regAt w.toNat = some r) (hcmd : r ≠ .cmd)
    (hoff : off &&& 0xFFFC = w) : step s = .next (State.writeReg { s with inputs := rest } r v) := by
  have hw : wordOffset off = w.toNat := by rw [wordOffset, hoff]
  have hne : wordOffset off ≠ 0 := by
    intro h0
    rw [hw] at h0
    rw [h0] at hreg
    exact hcmd (Option.some.inj hreg).symm
  rw [step_write_idle h hb hne, hw, State.writeWord_of_regAt _ v hreg]

/-- The registers of R21 that the host cannot write. -/
def readOnlyRegs : List Reg :=
  [.status, .err, .result, .vlen, .txBodyLen, .txFrameLen, .txSent, .rxFrameLen, .rxRcvd, .rxCursor, .spanOff, .spanLen,
    .timer]

/-- A write to a read-only register is ignored (20_memory.md R53). -/
theorem State.writeReg_of_readOnly {r : Reg} (hr : r ∈ readOnlyRegs) (s : State) (v : Word) : s.writeReg r v = s := by
  cases r with
  | operand | vbytesLo | vbytesHi | protoVer | port | connectTimeout | readTimeout | strLen =>
    exact absurd hr (by decide)
  | cmd | status | err | result | vlen | txBodyLen | txFrameLen | txSent | rxFrameLen | rxRcvd | rxCursor | spanOff
    | spanLen | timer => rfl

/-- The word offsets of R21's RO rows, each with its register. -/
theorem regAt_of_readOnly_offset {w : Half}
    (hw : w ∈ ([0x0008, 0x000C, 0x0010, 0x001C, 0x0034, 0x0038, 0x003C, 0x0040, 0x0044, 0x0048, 0x004C, 0x0050, 0x0054] :
      List Half)) : ∃ r ∈ readOnlyRegs, regAt w.toNat = some r := by
  simp only [List.mem_cons, List.not_mem_nil, or_false] at hw
  obtain rfl | rfl | rfl | rfl | rfl | rfl | rfl | rfl | rfl | rfl | rfl | rfl | rfl := hw
  exacts [⟨.status, by decide, rfl⟩, ⟨.err, by decide, rfl⟩, ⟨.result, by decide, rfl⟩, ⟨.vlen, by decide, rfl⟩,
    ⟨.txBodyLen, by decide, rfl⟩, ⟨.txFrameLen, by decide, rfl⟩, ⟨.txSent, by decide, rfl⟩,
    ⟨.rxFrameLen, by decide, rfl⟩, ⟨.rxRcvd, by decide, rfl⟩, ⟨.rxCursor, by decide, rfl⟩, ⟨.spanOff, by decide, rfl⟩,
    ⟨.spanLen, by decide, rfl⟩, ⟨.timer, by decide, rfl⟩]

/-- Settles O8: R21's map row by row, a read and a write each being that of the register found there. -/
theorem registerMapReadsAndStores : Obligations.RegisterMapReadsAndStores := by
  unfold Obligations.RegisterMapReadsAndStores
  constructor
  · intro s
    have hread {w : Nat} := s.readWord_of_regAt (w := w)
    exact ⟨hread .cmd rfl, hread .operand rfl, hread .status rfl, hread .err rfl, hread .result rfl,
      hread .vbytesLo rfl, hread .vbytesHi rfl, hread .vlen rfl, hread .protoVer rfl, hread .port rfl,
      hread .connectTimeout rfl, hread .readTimeout rfl, hread .strLen rfl, hread .txBodyLen rfl,
      hread .txFrameLen rfl, hread .txSent rfl, hread .rxFrameLen rfl, hread .rxRcvd rfl, hread .rxCursor rfl,
      hread .spanOff rfl, hread .spanLen rfl, hread .timer rfl⟩
  · intro s off v rest h hb
    have hstore {w : Half} (r : Reg) := step_write_register (w := w) (r := r) h hb
    refine ⟨hstore .operand rfl (by decide), hstore .vbytesLo rfl (by decide), hstore .vbytesHi rfl (by decide),
      hstore .protoVer rfl (by decide), hstore .port rfl (by decide), hstore .connectTimeout rfl (by decide),
      hstore .readTimeout rfl (by decide), hstore .strLen rfl (by decide), fun hoff => ?_⟩
    obtain ⟨r, hr, hreg⟩ := regAt_of_readOnly_offset hoff
    have hcmd : r ≠ .cmd := fun heq => absurd (heq ▸ hr) (by decide)
    rw [hstore r hreg hcmd rfl, State.writeReg_of_readOnly hr]

/-! ### STATUS -/

theorem State.status_fsm (s : State) : s.status.extractLsb' 0 3 = s.fsm.code := by
  unfold State.status
  exact BitVec.extractLsb'_append_eq_right

theorem State.status_phase (s : State) : s.status.extractLsb' 4 3 = s.phase.code := by
  unfold State.status
  rw [BitVec.extractLsb'_append_eq_of_le (by decide), BitVec.extractLsb'_append_eq_of_le (by decide)]
  exact BitVec.extractLsb'_append_eq_right

/-- The bits above FRAME_VALID lie past the six packed fields. -/
theorem State.status_reserved (s : State) : s.status.extractLsb' 10 22 = 0 := by
  unfold State.status
  rw [BitVec.extractLsb'_append_eq_of_le (by decide), BitVec.extractLsb'_append_eq_of_le (by decide),
    BitVec.extractLsb'_append_eq_of_le (by decide), BitVec.extractLsb'_append_eq_of_le (by decide),
    BitVec.extractLsb'_append_eq_of_le (by decide)]
  exact BitVec.extractLsb'_append_eq_left

/-- The one-bit fields of STATUS (R24). -/
theorem State.status_flags (s : State) :
    s.status.getLsbD 3 = s.busy ∧ s.status.getLsbD 7 = s.errf ∧ s.status.getLsbD 8 = s.rej ∧
    s.status.getLsbD 9 = s.frameValid := by
  simp only [State.status, BitVec.getLsbD_append, BitVec.getLsbD_ofBool]
  simp

theorem Phase.busy_iff (p : Phase) : p.busy = true ↔ p ≠ .idle ∧ p ≠ .done := by
  cases p <;> decide

theorem State.errf_iff (s : State) : s.errf = true ↔ s.errCode ≠ 0 := by simp [State.errf]

/-- Settles O9, field by field of the packing. -/
theorem statusRegisterFields : Obligations.StatusRegisterFields := by
  intro s
  obtain ⟨hbusy, herrf, hrej, hvalid⟩ := s.status_flags
  refine ⟨?_, ?_, ?_, ?_, hrej, hvalid, s.status_reserved⟩
  · rw [State.status_fsm]
    cases s.fsm <;> rfl
  · rw [State.status_phase]
    cases s.phase <;> rfl
  · rw [hbusy]
    exact s.phase.busy_iff
  · rw [herrf]
    exact s.errf_iff

end Sys2Proof.Machine

/-! The host bus of spec/20_memory.md: reads (R50), accepted commands (R51, with spec/30_encoding.md R73), the windows and the
unmapped words (R52 to R57), and what a BUSY block keeps (R58). -/

namespace Sys2Proof.Machine

open Sys2Proof

/-! ### Windows -/

/-- Byte `j` of a packed window word is window byte `i + j` (R54). -/
theorem extract_packFrom (f : Nat → Byte) (i j : Nat) (hj : j < 4) :
    (packFrom f i).extractLsb' (8 * j) 8 = f (i + j) := by
  rw [packFrom, extract_packBytes _ _ _ _ j hj]
  interval_cases j <;> rfl

theorem State.readWord_str (s : State) {k : Nat} (hk : k < 64) :
    s.readWord (0x0100 + 4 * k) = packFrom (s.byteAt .str) (4 * k) := by
  rw [State.readWord, regAt_eq_none (by omega)]
  simp only [Nat.add_sub_cancel_left]
  rw [if_pos (by omega)]

theorem State.readWord_tx (s : State) {k : Nat} (hk : k < 256) :
    s.readWord (0x0400 + 4 * k) = packFrom s.txWindowByte (4 * k) := by
  rw [State.readWord, regAt_eq_none (by omega)]
  simp only [Nat.add_sub_cancel_left]
  rw [if_neg (by omega), if_pos (by omega)]

theorem State.readWord_rx (s : State) {k : Nat} (hk : k < 8192) :
    s.readWord (0x8000 + 4 * k) = packFrom (s.byteAt .rx) (4 * k) := by
  rw [State.readWord, regAt_eq_none (by omega)]
  simp only [Nat.add_sub_cancel_left]
  rw [if_neg (by omega), if_neg (by omega), if_pos (by omega)]

theorem State.writeWord_str (s : State) (v : Word) {k : Nat} (hk : k < 64) :
    s.writeWord (0x0100 + 4 * k) v = s.writeStr (4 * k) (bytesOfWord v) := by
  rw [State.writeWord, regAt_eq_none (by omega)]
  simp only [Nat.add_sub_cancel_left]
  rw [if_pos (by omega)]

theorem State.writeWord_rx (s : State) (v : Word) {k : Nat} (hk : k < 8192) :
    s.writeWord (0x8000 + 4 * k) v = s.writeRx (4 * k) (bytesOfWord v) := by
  rw [State.writeWord, regAt_eq_none (by omega)]
  simp only [Nat.add_sub_cancel_left]
  rw [if_neg (by omega), if_pos (by omega)]

/-- Past the registers only the STR and RX windows store anything (R51, R53, R56). -/
theorem State.writeWord_ignored (s : State) (v : Word) {w : Nat} (hreg : 0x58 ≤ w)
    (hstr : ¬ (0x0100 ≤ w ∧ w < 0x0200)) (hrx : w < 0x8000) : s.writeWord w v = s := by
  rw [State.writeWord, regAt_eq_none hreg]
  simp only
  rw [if_neg hstr, if_neg (by omega)]

/-- A word stored into a buffer: its four bytes in little-endian order, and every other byte as before (R54). -/
theorem byteAt_of_word_stored {s t : State} {b : Config.Buffer} {a : Nat} {v : Word}
    (hbuf : t.buffer b = Mem.writeRun (bufferSize b) (s.buffer b) a (bytesOfWord v)) (hdraws : t.draws = s.draws)
    (hfits : a + 4 ≤ bufferSize b) :
    (∀ j, j < 4 → t.byteAt b (a + j) = v.extractLsb' (8 * j) 8) ∧ SameBytesOutside b a 4 s t := by
  refine ⟨fun j hj => ?_, fun i hi => ?_⟩
  · rw [State.byteAt, hbuf, Mem.lookup_writeRun_inside _ _ _ _ (bytesOfWord v) hj hfits]
    interval_cases j <;> rfl
  · rw [State.byteAt, State.byteAt, hbuf, hdraws, Mem.lookup_writeRun_outside _ _ _ _ (bytesOfWord v) hi]

/-- Settles O10: a window word packs four bytes of STR, and a store to it is a run of four. -/
theorem strWindowReadsAndWrites : Obligations.StrWindowReadsAndWrites := by
  intro s k hk
  refine ⟨fun j hj => ?_, fun off v rest hoff h hb => ?_⟩
  · rw [s.readWord_str hk, extract_packFrom _ _ _ hj]
  · have hw : wordOffset off = 0x0100 + 4 * k := hoff
    have hstep := step_write_idle h hb (by omega)
    rw [hw, State.writeWord_str _ v hk] at hstep
    have hfits : 4 * k + 4 ≤ 256 := by omega
    obtain ⟨hin, hout⟩ := byteAt_of_word_stored (s := s) (b := .str) (v := v)
      (t := State.writeStr { s with inputs := rest } (4 * k) (bytesOfWord v)) rfl rfl hfits
    exact ⟨_, hstep, hin, hout, rfl⟩

/-- Settles O11: a window word packs four bytes of RX, and a store to it is a run of four that moves no other register. -/
theorem rxWindowReadsAndWrites : Obligations.RxWindowReadsAndWrites := by
  intro s k hk
  refine ⟨fun j hj => ?_, fun off v rest hoff h hb => ?_⟩
  · rw [s.readWord_rx hk, extract_packFrom _ _ _ hj]
  · have hw : wordOffset off = 0x8000 + 4 * k := hoff
    have hstep := step_write_idle h hb (by omega)
    rw [hw, State.writeWord_rx _ v hk] at hstep
    have hfits : 4 * k + 4 ≤ 32768 := by omega
    obtain ⟨hin, hout⟩ := byteAt_of_word_stored (s := s) (b := .rx) (v := v)
      (t := State.writeRx { s with inputs := rest } (4 * k) (bytesOfWord v)) rfl rfl hfits
    exact ⟨_, hstep, hin, hout, rfl⟩

/-- The step at a host write to a word past the registers that is in neither the STR nor the RX window. -/
theorem step_write_ignored {s : State} {off : Half} {v : Word} {rest : List Input}
    (h : s.inputs = .write32 off v :: rest) (hb : s.busy = false) (hreg : 0x58 ≤ wordOffset off)
    (hstr : ¬ (0x0100 ≤ wordOffset off ∧ wordOffset off < 0x0200)) (hrx : wordOffset off < 0x8000) :
    step s = .next { s with inputs := rest } := by
  rw [step_write_idle h hb (by omega), State.writeWord_ignored _ v hreg hstr hrx]

/-- Settles O12: a window word packs four of R56's `txbyte`s, and R108 says what each is. -/
theorem txWindowShowsTheFrame : Obligations.TxWindowShowsTheFrame := by
  intro s k hk
  refine ⟨fun j hj => ?_, fun off v rest hoff h hb => ?_⟩
  · rw [s.readWord_tx hk, extract_packFrom _ _ _ hj]
    rfl
  · have hw : wordOffset off = 0x0400 + 4 * k := hoff
    exact step_write_ignored h hb (by omega) (by omega) (by omega)

/-! ### Unmapped words -/

/-- The offsets where R52 maps nothing. -/
def Unmapped (w : Nat) : Prop :=
  (0x0058 ≤ w ∧ w < 0x0100) ∨ (0x0200 ≤ w ∧ w < 0x0400) ∨ (0x0800 ≤ w ∧ w < 0x8000)

/-- The unmapped ranges begin at multiples of 4, so the word of an unmapped offset is unmapped. -/
theorem Unmapped.wordOffset {off : Half} (h : Unmapped off.toNat) : Unmapped (wordOffset off) := by
  unfold Unmapped at h ⊢
  rw [wordOffset_eq]
  omega

theorem State.readWord_unmapped (s : State) {w : Nat} (h : Unmapped w) : s.readWord w = 0 := by
  unfold Unmapped at h
  rw [State.readWord, regAt_eq_none (by omega)]
  simp only
  rw [if_neg (by omega), if_neg (by omega), if_neg (by omega)]

/-- Settles O13: the word of an unmapped offset holds no register and lies in no window. -/
theorem unmappedWordsReadZeroAndIgnoreWrites : Obligations.UnmappedWordsReadZeroAndIgnoreWrites := by
  intro s off hoff
  have hword : Unmapped (wordOffset off) := Unmapped.wordOffset hoff
  refine ⟨s.readWord_unmapped hword, fun v rest h hb => ?_⟩
  unfold Unmapped at hword
  exact step_write_ignored h hb (by omega) (by omega) (by omega)

/-! ### Reads and accepted commands -/

/-- Settles O7: a read is enabled in every phase and touches the read log alone. -/
theorem hostReadChangesNothing : Obligations.HostReadChangesNothing :=
  fun _ _ _ h => step_enabled h rfl

/-- An undefined opcode is reported whatever RSVD is (spec/30_encoding.md R73, R82). -/
theorem decode_of_undefinedOpcode {w : Word} (h : w.extractLsb' 0 8 ∉ definedOpcodes) :
    decode w = .error .undefinedOpcode := by
  have hnone : instrOfOpcode (commandFields w).opc = none := (instrOfOpcode_eq_none_iff _).2 h
  rw [decode, hnone]

/-- A defined opcode with a reserved bit set is no command (spec/30_encoding.md R73, R82). -/
theorem decode_of_reservedBitsSet {w : Word} (h : w.extractLsb' 0 8 ∈ definedOpcodes)
    (hrsvd : w.extractLsb' 8 24 ≠ 0) : decode w = .error .reservedBitsSet := by
  have hclear : (commandFields w).reservedClear = false := beq_false_of_ne hrsvd
  cases hi : instrOfOpcode (commandFields w).opc with
  | none => exact absurd h ((instrOfOpcode_eq_none_iff _).1 hi)
  | some i => simp [decode, hi, hclear]

theorem execute_of_decode {w : Word} {i : Instr} (h : decode w = .ok i) (s : State) : execute w s = exec i s := by
  simp only [execute, h]

theorem execute_of_undefinedOpcode {w : Word} (h : decode w = .error .undefinedOpcode) (s : State) :
    execute w s = .next (s.raise .undefinedOpcode) := by
  simp only [execute, h]

theorem execute_of_reservedBitsSet {w : Word} (h : decode w = .error .reservedBitsSet) (s : State) :
    execute w s = .next (s.raise .reservedBitsSet) := by
  simp only [execute, h]

/-- The step at a CMD write while not BUSY executes the word, REJ and ERR cleared (R51). -/
theorem step_write_command {s : State} {off : Half} {w : Word} {rest : List Input}
    (h : s.inputs = .write32 off w :: rest) (hoff : off &&& 0xFFFC = 0) (hb : s.busy = false) :
    step s = execute w (State.accept { s with inputs := rest }) := by
  have hb' : State.busy { s with inputs := rest } = false := hb
  rw [step_write h, busWrite, if_pos (wordOffset_eq_zero_iff.2 hoff), if_neg (by simp [hb'])]

/-- Settles O4, by how the word decodes. -/
theorem stepRunsDecodedCommand : Obligations.StepRunsDecodedCommand := by
  intro s off w rest h hoff hb
  have hstep := step_write_command h hoff hb
  refine ⟨hstep, fun i _ hi => ?_, fun hopc => ?_, fun hopc hrsvd => ?_⟩
  · rw [hstep, execute_of_decode hi]
    rfl
  · rw [hstep, execute_of_undefinedOpcode (decode_of_undefinedOpcode hopc)]
    rfl
  · rw [hstep, execute_of_reservedBitsSet (decode_of_reservedBitsSet hopc hrsvd)]
    rfl

/-! ### What a run reads -/

/-- The registers and the buffer that a run reads and the host alone writes (R58); a byte of STR is read from its written
bytes and the draw. -/
structure RunConfig where
  protoVer : Word
  port : Half
  strLen : BitVec 9
  str : Mem
  draws : Nat
  connectTimeout : Word
  readTimeout : Word

def State.runConfig (s : State) : RunConfig where
  protoVer := s.protoVer
  port := s.port
  strLen := s.strLen
  str := s.str
  draws := s.draws
  connectTimeout := s.connectTimeout
  readTimeout := s.readTimeout

/-- An equal configuration reads the same, register by register and byte by byte of STR. -/
theorem State.reads_of_runConfig_eq {s t : State} (h : t.runConfig = s.runConfig) :
    t.protoVer = s.protoVer ∧ t.port = s.port ∧ t.strLen = s.strLen ∧ SameBytes .str s t ∧
      t.connectTimeout = s.connectTimeout ∧ t.readTimeout = s.readTimeout :=
  have hstr : t.buffer .str = s.buffer .str := congrArg RunConfig.str h
  ⟨congrArg RunConfig.protoVer h, congrArg RunConfig.port h, congrArg RunConfig.strLen h,
    State.byteAt_congr hstr (congrArg RunConfig.draws h), congrArg RunConfig.connectTimeout h,
    congrArg RunConfig.readTimeout h⟩

theorem State.runConfig_connOk (s : State) : s.connOk.runConfig = s.runConfig := by
  obtain ⟨-, e, ht⟩ | ⟨-, -, ht⟩ := s.connOk_cases
  · rw [ht]; rfl
  · rw [ht]; rfl

theorem State.runConfig_txAccept (s : State) : s.txAccept.runConfig = s.runConfig := by
  obtain ⟨-, ht⟩ | ⟨-, -, -, -, -, ht⟩ | ⟨-, -, ht⟩ := s.txAccept_cases
  · rw [ht]; rfl
  · rw [ht]; rfl
  · rw [ht]; rfl

theorem State.runConfig_complete (s : State) : s.complete.runConfig = s.runConfig := by
  obtain ⟨r, c, e, -, ht⟩ | ⟨r, c, o, l, -, -, ht⟩ := s.complete_cases
  · rw [ht]; rfl
  · rw [ht]; rfl

theorem State.runConfig_rxLengthByte (s : State) (b : Byte) : (s.rxLengthByte b).runConfig = s.runConfig := by
  obtain ⟨L, c, -, -, ⟨-, -, ht⟩ | ⟨e, -, ht⟩ | ⟨-, -, ht⟩ | ⟨-, -, -, ht⟩⟩ := s.rxLengthByte_cases b
  · rw [ht]; rfl
  · rw [ht]; rfl
  · rw [ht, State.runConfig_complete]; rfl
  · rw [ht]; rfl

theorem State.runConfig_rxBodyByte (s : State) (b : Byte) : (s.rxBodyByte b).runConfig = s.runConfig := by
  obtain ⟨-, ht⟩ | ⟨-, ht⟩ := s.rxBodyByte_cases b
  · rw [ht]; rfl
  · rw [ht, State.runConfig_complete]; rfl

theorem State.runConfig_rxByte (s : State) (b : Byte) : (s.rxByte b).runConfig = s.runConfig := by
  unfold State.rxByte
  split
  · exact s.runConfig_rxLengthByte b
  · exact s.runConfig_rxBodyByte b

theorem State.runConfig_tick (s : State) : s.tick.runConfig = s.runConfig := by
  obtain ⟨-, -, -, ht⟩ | ⟨-, -, ht⟩ | ⟨-, -, ht⟩ | ⟨-, -, ht⟩ | ⟨-, -, ht⟩ := s.tick_cases
  · rw [ht]
  · rw [ht]; rfl
  · rw [ht]; rfl
  · rw [ht]; rfl
  · rw [ht]; rfl

/-- A BUSY block stores no host write: it sets REJ at most (R51, R58). -/
theorem runConfig_busWrite_of_busy {off : Half} {v : Word} {s t : State} (hb : s.busy = true)
    (ht : busWrite off v s = .next t) : t.runConfig = s.runConfig := by
  obtain ⟨-, -, rfl⟩ | ⟨-, hidle, -⟩ | ⟨-, -, rfl⟩ | ⟨-, hidle, -⟩ := busWrite_next ht
  · rfl
  · simp [hb] at hidle
  · rfl
  · simp [hb] at hidle

theorem runConfig_take_of_busy {i : Input} {s t : State} (hb : s.busy = true) (hi : i ≠ .reset)
    (ht : s.take i = .next t) : t.runConfig = s.runConfig := by
  cases i with
  | write32 off v => exact runConfig_busWrite_of_busy hb ht
  | connOk => cases ht; exact s.runConfig_connOk
  | txAccept => cases ht; exact s.runConfig_txAccept
  | rxByte b => cases ht; exact s.runConfig_rxByte b
  | tick => cases ht; exact s.runConfig_tick
  | read32 _ | connFail | rxEos | ioErr => cases ht; rfl
  | reset => exact absurd rfl hi

/-- The step at a host write off CMD while BUSY takes the write off the schedule and stores nothing (R58). -/
theorem step_write_busy {s : State} {off : Half} {v : Word} {rest : List Input}
    (h : s.inputs = .write32 off v :: rest) (hb : s.busy = true) (hoff : wordOffset off ≠ 0) :
    step s = .next { s with inputs := rest } := by
  have hb' : State.busy { s with inputs := rest } = true := hb
  rw [step_write h, busWrite, if_neg hoff, if_pos hb']

/-- Settles O6: a BUSY block stores no host write, and each event keeps what a run reads. -/
theorem hostWritesIgnoredWhileBusy : Obligations.HostWritesIgnoredWhileBusy := by
  refine ⟨fun s off v rest h hoff hb => step_write_busy h hb (mt wordOffset_eq_zero_iff.1 hoff), ?_⟩
  intro s t hb hreset hstep
  refine State.reads_of_runConfig_eq ?_
  obtain ⟨-, rfl⟩ | ⟨i, rest, hin, -, ht⟩ := step_next hstep
  · rfl
  · have hi : i ≠ .reset := fun heq => hreset rest (heq ▸ hin)
    exact runConfig_take_of_busy (s := { s with inputs := rest }) hb hi ht

end Sys2Proof.Machine

/-! The command word (spec/30_encoding.md R70, R71, R73, R74): the decoder and the encoder are one map between words and
commands, an accepted word is illegal or its command, and every command but HS_START completes in its own step. -/

namespace Sys2Proof.Machine

open Sys2Proof

/-- A word is its two fields, OPC and RSVD (R70). -/
theorem fields_append (w : Word) : w.extractLsb' 8 24 ++ w.extractLsb' 0 8 = w := by
  rw [BitVec.extractLsb'_append_extractLsb'_eq_extractLsb' (by rfl)]
  exact BitVec.extractLsb'_eq_self

theorem word_eq_of_fields {v w : Word} (hopc : v.extractLsb' 0 8 = w.extractLsb' 0 8)
    (hrsvd : v.extractLsb' 8 24 = w.extractLsb' 8 24) : v = w := by
  rw [← fields_append v, ← fields_append w, hopc, hrsvd]

/-- The word of a command is its OPC with RSVD 0 (R70). -/
theorem encode_fields (i : Instr) : (encode i).extractLsb' 0 8 = opcodeOf i ∧ (encode i).extractLsb' 8 24 = 0 := by
  cases i <;> decide

/-- The decoder answers a command on its OPC with RSVD 0, and nowhere else (R73). -/
theorem decode_eq_ok_iff (w : Word) (i : Instr) :
    decode w = .ok i ↔ w.extractLsb' 0 8 = opcodeOf i ∧ w.extractLsb' 8 24 = 0 := by
  have hclear : (commandFields w).reservedClear = true ↔ w.extractLsb' 8 24 = 0 := beq_iff_eq
  rw [← instrOfOpcode_eq_some_iff, ← hclear]
  change decode w = .ok i ↔ instrOfOpcode (commandFields w).opc = some i ∧ _
  rw [decode]
  cases instrOfOpcode (commandFields w).opc with
  | none => simp
  | some j => cases (commandFields w).reservedClear <;> simp

/-- Settles O1: the two fields that a command decodes from are those of its word, and they fix the word. -/
theorem decodeAnswersExactlyTheEncoding : Obligations.DecodeAnswersExactlyTheEncoding := by
  intro w i
  obtain ⟨hopc, hrsvd⟩ := encode_fields i
  rw [decode_eq_ok_iff]
  constructor
  · rintro ⟨hw, hw'⟩
    exact word_eq_of_fields (hw.trans hopc.symm) (hw'.trans hrsvd.symm)
  · rintro rfl
    exact ⟨hopc, hrsvd⟩

/-- Settles O2: each row's word is the encoding of its command, and an opcode off the map is undefined. -/
theorem opcodeMap : Obligations.OpcodeMap := by
  have hrow : ∀ i : Instr, decode (encode i) = .ok i := fun i => (decodeAnswersExactlyTheEncoding _ i).2 rfl
  exact ⟨⟨hrow .venc, hrow .vdec⟩,
    ⟨hrow .fbReset, hrow .fbWbyte, hrow .fbWbytes, hrow .fbWvarint, hrow .fbWu16be, hrow .fbWstr, hrow .fbFinish⟩,
    ⟨hrow .fpLoad, hrow .fpRbyte, hrow .fpRbytes, hrow .fpRvarint, hrow .fpRstr⟩,
    hrow .hsStart, fun _ => decode_of_undefinedOpcode⟩

/-- A word with a defined OPC and RSVD 0 decodes to the command of that OPC (R73). -/
theorem decode_of_wellFormed {w : Word} (hopc : w.extractLsb' 0 8 ∈ definedOpcodes) (hrsvd : w.extractLsb' 8 24 = 0) :
    ∃ i, decode w = .ok i ∧ opcodeOf i = w.extractLsb' 0 8 := by
  cases hi : instrOfOpcode (w.extractLsb' 0 8) with
  | none => exact absurd hopc ((instrOfOpcode_eq_none_iff _).1 hi)
  | some i =>
    have hw := (instrOfOpcode_eq_some_iff _ i).1 hi
    exact ⟨i, (decode_eq_ok_iff w i).2 ⟨hw, hrsvd⟩, hw.symm⟩

/-- Settles O3, by how the word decodes. -/
theorem executeClassifiesEveryWord : Obligations.ExecuteClassifiesEveryWord := by
  refine fun w s => ⟨fun hopc => ?_, fun hopc => ⟨fun hrsvd => ?_, fun hrsvd => ?_⟩⟩
  · exact execute_of_undefinedOpcode (decode_of_undefinedOpcode hopc) s
  · exact execute_of_reservedBitsSet (decode_of_reservedBitsSet hopc hrsvd) s
  · obtain ⟨i, hi, hw⟩ := decode_of_wellFormed hopc hrsvd
    exact ⟨i, hi, hw, execute_of_decode hi s⟩

/-! ### Completion -/

/-- A short command writes ERR, RESULT, the varint window, the frame_builder's state and the reader's, and nothing else
(R74, spec/00_scope.md R11). -/
theorem exec_short_frame {i : Instr} {s t : State} (hi : i ≠ .hsStart) (ht : exec i s = .next t) :
    t = { s with
      errCode := t.errCode, errSub := t.errSub, result := t.result
      vbytesLo := t.vbytesLo, vbytesHi := t.vbytesHi, vlen := t.vlen
      body := t.body, txBodyLen := t.txBodyLen, pfx := t.pfx, plen := t.plen
      txFrameLen := t.txFrameLen, frameValid := t.frameValid
      rxFrameLen := t.rxFrameLen, rxCursor := t.rxCursor, spanOff := t.spanOff, spanLen := t.spanLen } := by
  obtain ⟨e, rfl⟩ | rfl | ⟨v, n, -, rfl⟩ | rfl | ⟨bs, -, rfl⟩ | rfl | ⟨-, rfl⟩ | ⟨b, -, rfl⟩ | ⟨n, -, rfl⟩ |
    ⟨v, k, -, rfl⟩ := exec_short hi ht
  all_goals rfl

/-- Settles O37: the frame of a short command holds everything of a run, and HS_START's start check decides the other case. -/
theorem commandCompletion : Obligations.CommandCompletion := by
  refine ⟨fun i s hi => ?_, fun s => ?_⟩
  · obtain ⟨t, ht⟩ := exec_completes i s
    refine ⟨t, ht, ?_⟩
    rw [exec_short_frame hi ht]
    exact ⟨rfl, rfl, rfl, rfl, rfl, rfl, rfl, rfl, rfl, rfl, rfl, rfl, rfl, rfl, rfl, rfl, fun _ => rfl, fun _ => rfl⟩
  · obtain ⟨t, ht⟩ := exec_completes .hsStart s
    refine ⟨t, ht, ?_⟩
    obtain ⟨hlong, rfl⟩ | ⟨hfits, rfl⟩ := exec_hsStart ht
    · exact ⟨fun _ => ⟨rfl, rfl⟩, fun hfits => absurd hlong (by omega)⟩
    · exact ⟨fun hlong => absurd hfits (by omega), fun _ => ⟨rfl, rfl⟩⟩

end Sys2Proof.Machine

/-! The varint format (spec/30_encoding.md R75). -/

namespace Sys2Proof.Machine

open Sys2Proof

/-- Bit `j` of the seven value bits of byte `k` is bit `7k + j` of the value. -/
theorem venc_getLsbD {v : Word} {k j : Nat} (hk : k < (venc v).length) (hj : j < 7) :
    ((venc v).getD k 0).getLsbD j = v.getLsbD (7 * k + j) := by
  obtain ⟨-, -, -, hbytes⟩ := venc_spec v
  exact (hbytes k hk).1 j hj

/-- The continuation bit is set on every byte but the last. -/
theorem venc_continues_iff {v : Word} {k : Nat} (hk : k < (venc v).length) :
    continues ((venc v).getD k 0) = true ↔ k < (venc v).length - 1 := by
  obtain ⟨-, -, -, hbytes⟩ := venc_spec v
  rw [continues, (hbytes k hk).2, decide_eq_true_eq]
  omega

/-- The value bits of byte `k` that stand within `lo` to `lo + n - 1`. -/
theorem venc_extract {v : Word} {k lo n : Nat} (hk : k < (venc v).length) (hn : lo + n ≤ 7) :
    ((venc v).getD k 0).extractLsb' lo n = v.extractLsb' (7 * k + lo) n := by
  apply BitVec.eq_of_getLsbD_eq
  intro j hj
  simp only [BitVec.getLsbD_extractLsb', hj, decide_true, Bool.true_and]
  rw [venc_getLsbD hk (by omega), Nat.add_assoc]

/-- Settles O15: the groups, the continuation bits and the length are read off `venc_spec`; the top three value bits of a
fifth byte stand past bit 31. -/
theorem vencEmitsTheVarintFormat : Obligations.VencEmitsTheVarintFormat := by
  intro v
  refine ⟨⟨venc_length_pos v, venc_length_le v⟩, fun k hk _ => venc_extract hk (by norm_num),
    fun h5 => ⟨venc_extract (by omega) (by norm_num), ?_⟩, fun k hk => venc_continues_iff hk, ?_, fun n hn hlt => ?_⟩
  · rw [venc_extract (by omega) (by norm_num)]
    apply BitVec.eq_of_getLsbD_eq
    intro j hj
    simp
  · obtain ⟨-, hholds, -, -⟩ := venc_spec v
    exact hholds
  · by_contra hsmall
    exact absurd (venc_length_le_of_lt v n hn (by omega)) (by omega)

end Sys2Proof.Machine

/-! The reception of one frame (spec/30_encoding.md R76, R79; spec/43_frame_parser.md R126 to R131): the length prefix byte by
byte, the body byte by byte, and the parse of a body that holds a Status Response. -/

namespace Sys2Proof.Machine

open Sys2Proof

/-- A number that fits keeps its value in a register. -/
theorem toNat_ofNat_of_lt {w n : Nat} (h : n < 2 ^ w) : (BitVec.ofNat w n).toNat = n := by
  rw [BitVec.toNat_ofNat, Nat.mod_eq_of_lt h]

/-! ### Bytes that hold a sequence -/

/-- The bytes `f lo, f (lo+1), ...` begin with the sequence `bs`. -/
def HoldsBytes (f : Nat → Byte) (lo : Nat) (bs : List Byte) : Prop :=
  ∀ (j : Nat) (h : j < bs.length), f (lo + j) = bs[j]

theorem HoldsBytes.left {f : Nat → Byte} {lo : Nat} {as bs : List Byte} (h : HoldsBytes f lo (as ++ bs)) :
    HoldsBytes f lo as := fun j hj => by
  rw [h j (by rw [List.length_append]; omega), List.getElem_append_left hj]

theorem HoldsBytes.right {f : Nat → Byte} {lo : Nat} {as bs : List Byte} (h : HoldsBytes f lo (as ++ bs)) :
    HoldsBytes f (lo + as.length) bs := fun j hj => by
  rw [Nat.add_assoc, h (as.length + j) (by rw [List.length_append]; omega),
    List.getElem_append_right (Nat.le_add_right _ _)]
  simp only [Nat.add_sub_cancel_left]

theorem State.bytesFrom_of_holdsBytes {s : State} {b : Config.Buffer} {lo : Nat} {bs : List Byte}
    (h : HoldsBytes (s.byteAt b) lo bs) : s.bytesFrom b lo bs.length = bs := by
  apply List.ext_getElem (by simp)
  intro j _ hj
  rw [State.getElem_bytesFrom, h j hj]

/-- RX holds a run that was written to it (R38). -/
theorem State.holdsBytes_of_rx_written {s : State} {m : Mem} {a : Nat} {bs : List Byte}
    (hrx : s.rx = Mem.writeRun 32768 m a bs) (hfits : a + bs.length ≤ 32768) : HoldsBytes (s.byteAt .rx) a bs := by
  intro j hj
  simp [State.byteAt, State.buffer, hrx, Mem.lookup_writeRun_inside 32768 m a j bs hj hfits]

/-- Bytes that begin with an encoding hold its value (R75). -/
theorem holdsVarint_of_holdsBytes_venc {f : Nat → Byte} {lo : Nat} {v : Word} (h : HoldsBytes f lo (venc v)) :
    HoldsVarint (fun j => f (lo + j)) ((venc v).length - 1) v := by
  have hpos := venc_length_pos v
  have hle := venc_length_le v
  have hbyte : ∀ j, j < (venc v).length → f (lo + j) = (venc v).getD j 0 := fun j hj => by
    rw [h j hj, List.getD_eq_getElem _ _ hj]
  refine ⟨by omega, fun j hj => ?_, ?_, fun m hm => ?_⟩
  · simp only [hbyte j (by omega)]
    exact (venc_continues_iff (by omega)).2 hj
  · simp only [hbyte _ (by omega : (venc v).length - 1 < _)]
    exact Bool.eq_false_iff.2 fun hc => absurd ((venc_continues_iff (by omega)).1 hc) (lt_irrefl _)
  · have hacc : accumulateBytes (fun j => f (lo + j)) (venc v).length = v :=
      (accumulateBytes_congr hbyte).trans (accumulateBytes_venc v)
    conv_lhs => rw [← hacc]
    rw [accumulateBytes_getLsbD _ _ _ hle hm]
    simp only [Nat.le_sub_one_iff_lt hpos]

/-! ### The length prefix -/

theorem step_rxByte_recvLen {s : State} {b : Byte} {rest : List Input} (h : s.inputs = .rxByte b :: rest)
    (hp : s.phase = .recvLen) : step s = .next (State.rxLengthByte { s with inputs := rest } b) := by
  rw [step_enabled h (by simp [enabled, hp])]
  simp [State.take, State.rxByte, hp]

/-- A length prefix byte that continues and is not the fifth (R126). -/
theorem State.rxLengthByte_of_continues {s : State} {b : Byte} (hb : continues b = true) (hc : s.lcnt.toNat < 4) :
    s.rxLengthByte b =
      { s with lacc := vdecAccumulate s.lacc s.lcnt.toNat b, lcnt := BitVec.ofNat 3 (s.lcnt.toNat + 1) } := by
  have hcount : BitVec.ofNat 3 (s.lcnt.toNat + 1) ≠ 5 := fun h => by
    have := congrArg BitVec.toNat h
    simp at this
    omega
  obtain ⟨L, c, rfl, rfl, ⟨-, -, ht⟩ | ⟨e, ⟨-, hc5⟩ | ⟨hb', -⟩, -⟩ | ⟨hb', -⟩ | ⟨hb', -⟩⟩ := s.rxLengthByte_cases b
  · exact ht
  · exact absurd hc5 hcount
  · simp [hb] at hb'
  · simp [hb] at hb'
  · simp [hb] at hb'

/-- The last byte of a length prefix that gives a legal length opens the body (R126). -/
theorem State.rxLengthByte_of_last {s : State} {b : Byte} {L : Word} (hb : continues b = false)
    (hL : vdecAccumulate s.lacc s.lcnt.toNat b = L) (hpos : L ≠ 0) (hfits : L.toNat ≤ 32768) :
    s.rxLengthByte b =
      { s with lacc := L, lcnt := BitVec.ofNat 3 (s.lcnt.toNat + 1), rxFrameLen := BitVec.ofNat 16 L.toNat, rxRcvd := 0,
               phase := .recvBody } := by
  obtain ⟨L', c, hL', rfl, ⟨hb', -⟩ | ⟨e, ⟨hb', -⟩ | ⟨-, hbig⟩, -⟩ | ⟨-, h0, -⟩ | ⟨-, -, -, ht⟩⟩ := s.rxLengthByte_cases b
  all_goals obtain rfl : L' = L := hL'.trans hL
  · simp [hb] at hb'
  · simp [hb] at hb'
  · omega
  · exact absurd h0 hpos
  · exact ht

/-- One step more at the end of a run. -/
theorem run_append_step {n : Nat} {s t u : State} (h : Host.Core.run Sys2Proof.core n s = .next t)
    (hstep : step t = .next u) :
    Host.Core.run Sys2Proof.core (n + 1) s = .next u :=
  (run_add h).trans (run_succ hstep)

/-- The state after `n` bytes of a length prefix that began in `s`, when the bytes `f 0, f 1, ...` came in. -/
def State.prefixReceived (s : State) (f : Nat → Byte) (n : Nat) (ins : List Input) : State :=
  { s with lacc := accumulateBytes f n, lcnt := BitVec.ofNat 3 n, inputs := ins }

theorem run_prefixReceived {s : State} {bs : List Byte} {more : List Input} (hp : s.phase = .recvLen)
    (hacc : s.lacc = 0) (hcnt : s.lcnt = 0) (hin : s.inputs = bs.map (fun b => .rxByte b) ++ more) {n : Nat} (hn : n ≤ 4)
    (hlen : n ≤ bs.length) (hc : ∀ k, k < n → continues (bs.getD k 0) = true) :
    Host.Core.run Sys2Proof.core n s =
      .next (s.prefixReceived (fun k => bs.getD k 0) n ((bs.drop n).map (fun b => .rxByte b) ++ more)) := by
  induction n with
  | zero =>
    rw [List.drop_zero, ← hin]
    show Host.Outcome.next s = .next { s with lacc := 0, lcnt := 0 }
    rw [← hacc, ← hcnt]
  | succ n ih =>
    refine run_append_step (ih (by omega) (by omega) fun k hk => hc k (by omega)) ?_
    have hb : bs.getD n 0 = bs[n] := List.getD_eq_getElem _ _ (by omega)
    have hcount : (BitVec.ofNat 3 n).toNat = n := toNat_ofNat_of_lt (by omega)
    rw [List.drop_eq_getElem_cons (by omega : n < bs.length), List.map_cons, List.cons_append]
    refine Eq.trans (step_rxByte_recvLen rfl hp) ?_
    rw [State.rxLengthByte_of_continues (hb ▸ hc n (by omega)) (hcount.trans_lt (by omega))]
    simp only [State.prefixReceived, accumulateBytes, hcount, hb]

/-- The length prefix of a frame, delivered byte by byte, opens a body of that length (R126). -/
theorem run_length_prefix {s : State} {L : Word} {ins : List Input} (hp : s.phase = .recvLen) (hacc : s.lacc = 0)
    (hcnt : s.lcnt = 0) (hin : s.inputs = (venc L).map (fun b => .rxByte b) ++ ins) (hpos : L ≠ 0)
    (hfits : L.toNat ≤ 32768) :
    Host.Core.run Sys2Proof.core (venc L).length s =
      .next { s with lacc := L, lcnt := BitVec.ofNat 3 (venc L).length, rxFrameLen := BitVec.ofNat 16 L.toNat,
                     rxRcvd := 0, phase := .recvBody, inputs := ins } := by
  obtain ⟨n, hn⟩ : ∃ n, (venc L).length = n + 1 := Nat.exists_eq_succ_of_ne_zero (venc_length_pos L).ne'
  have hle := venc_length_le L
  have hb : (venc L).getD n 0 = (venc L)[n] := List.getD_eq_getElem _ _ (by omega)
  have hlast : continues (venc L)[n] = false :=
    Bool.eq_false_iff.2 fun hc => by
      have := (venc_continues_iff (by omega)).1 (hb ▸ hc)
      omega
  have hcount : (BitVec.ofNat 3 n).toNat = n := toNat_ofNat_of_lt (by omega)
  have hvalue : vdecAccumulate (accumulateBytes (fun k => (venc L).getD k 0) n) n (venc L)[n] = L := by
    have := accumulateBytes_venc L
    rwa [hn, accumulateBytes, hb] at this
  have hpre := run_prefixReceived hp hacc hcnt hin (n := n) (by omega) (by omega)
    fun k hk => (venc_continues_iff (by omega)).2 (by omega)
  rw [hn]
  refine run_append_step hpre ?_
  rw [List.drop_eq_getElem_cons (by omega : n < (venc L).length), List.drop_eq_nil_of_le (by omega)]
  refine Eq.trans (step_rxByte_recvLen rfl hp) ?_
  rw [State.rxLengthByte_of_last hlast (by simpa only [State.prefixReceived, hcount] using hvalue) hpos hfits]
  simp only [State.prefixReceived, hcount]
  rfl

/-! ### The body -/

theorem step_rxByte_recvBody {s : State} {b : Byte} {rest : List Input} (h : s.inputs = .rxByte b :: rest)
    (hp : s.phase = .recvBody) : step s = .next (State.rxBodyByte { s with inputs := rest } b) := by
  rw [step_enabled h (by simp [enabled, hp])]
  simp [State.take, State.rxByte, hp]

/-- The state whose body is complete by the bytes `bs`, before the parse (R127). -/
def State.bodyReceived (s : State) (bs : List Byte) (ins : List Input) : State :=
  { s with rx := Mem.writeRun 32768 s.rx s.rxRcvd.toNat bs, rxRcvd := s.rxFrameLen, inputs := ins }

theorem toNat_rxRcvd_next {s : State} (h : s.rxRcvd.toNat + 1 ≤ s.rxFrameLen.toNat) :
    (BitVec.ofNat 16 (s.rxRcvd.toNat + 1)).toNat = s.rxRcvd.toNat + 1 := by
  have := s.rxFrameLen.isLt
  exact toNat_ofNat_of_lt (by omega)

/-- A body byte with more to come (R127). -/
theorem step_rxByte_more {s : State} {b : Byte} {rest : List Input} (h : s.inputs = .rxByte b :: rest)
    (hp : s.phase = .recvBody) (hlt : s.rxRcvd.toNat + 1 < s.rxFrameLen.toNat) :
    step s = .next { s with rx := Mem.writeRun 32768 s.rx s.rxRcvd.toNat [b],
                            rxRcvd := BitVec.ofNat 16 (s.rxRcvd.toNat + 1), inputs := rest } := by
  rw [step_rxByte_recvBody h hp]
  obtain ⟨-, ht⟩ | ⟨hdone, -⟩ := State.rxBodyByte_cases { s with inputs := rest } b
  · exact congrArg Host.Outcome.next ht
  · have hcount := toNat_rxRcvd_next hlt.le
    exact absurd (hcount.symm.trans (congrArg BitVec.toNat hdone)) hlt.ne

/-- The body byte that completes the frame (R127). -/
theorem step_rxByte_last {s : State} {b : Byte} {rest : List Input} (h : s.inputs = .rxByte b :: rest)
    (hp : s.phase = .recvBody) (heq : s.rxRcvd.toNat + 1 = s.rxFrameLen.toNat) :
    step s = .next (s.bodyReceived [b] rest).complete := by
  rw [step_rxByte_recvBody h hp]
  obtain ⟨hmore, -⟩ | ⟨-, ht⟩ := State.rxBodyByte_cases { s with inputs := rest } b
  · exact absurd (BitVec.eq_of_toNat_eq ((toNat_rxRcvd_next heq.le).trans heq)) hmore
  · exact congrArg Host.Outcome.next ht

/-- The missing bytes of a body, delivered byte by byte, are stored in RX in order, and the last one runs the parse (R127). -/
theorem run_body {s : State} {bs : List Byte} {ins : List Input} (hp : s.phase = .recvBody) (hne : bs ≠ [])
    (hlen : s.rxRcvd.toNat + bs.length = s.rxFrameLen.toNat) (hin : s.inputs = bs.map (fun b => .rxByte b) ++ ins) :
    Host.Core.run Sys2Proof.core bs.length s = .next (s.bodyReceived bs ins).complete := by
  induction bs generalizing s with
  | nil => exact absurd rfl hne
  | cons b bs ih =>
    rw [List.length_cons] at hlen ⊢
    by_cases hbs : bs = []
    · subst hbs
      exact run_succ (step_rxByte_last hin hp hlen)
    · have hpos : 0 < bs.length := List.length_pos_iff.2 hbs
      have hcount := toNat_rxRcvd_next (s := s) (by omega)
      refine Eq.trans (run_succ (step_rxByte_more hin hp (by omega))) ?_
      refine Eq.trans (ih hp hbs (by simp only [hcount]; omega) rfl) ?_
      simp only [State.bodyReceived, hcount]
      rfl

/-- The state in which a frame with body `bs`, received from the opening of the receive in `s`, is parsed. -/
def State.frameReceived (s : State) (bs : List Byte) (ins : List Input) : State :=
  { s with
    lacc := BitVec.ofNat 32 bs.length, lcnt := BitVec.ofNat 3 (venc (BitVec.ofNat 32 bs.length)).length, phase := .recvBody
    rx := Mem.writeRun 32768 s.rx 0 bs, rxFrameLen := BitVec.ofNat 16 bs.length, rxRcvd := BitVec.ofNat 16 bs.length
    inputs := ins }

/-- A frame with a body that fits, delivered byte by byte, is stored whole and parsed (R76, R126, R127). -/
theorem run_frame {s : State} {bs : List Byte} {ins : List Input} (hp : s.phase = .recvLen) (hacc : s.lacc = 0)
    (hcnt : s.lcnt = 0) (hne : bs ≠ []) (hmax : bs.length ≤ 32768)
    (hin : s.inputs = (venc (BitVec.ofNat 32 bs.length) ++ bs).map (fun b => .rxByte b) ++ ins) :
    Host.Core.run Sys2Proof.core ((venc (BitVec.ofNat 32 bs.length)).length + bs.length) s =
      .next (s.frameReceived bs ins).complete := by
  have hpos : 0 < bs.length := List.length_pos_iff.2 hne
  have hL : (BitVec.ofNat 32 bs.length).toNat = bs.length := toNat_ofNat_of_lt (by omega)
  have hL0 : BitVec.ofNat 32 bs.length ≠ 0 := fun h => by
    rw [h] at hL
    exact hpos.ne hL
  rw [List.map_append, List.append_assoc] at hin
  have hprefix := run_length_prefix hp hacc hcnt hin hL0 (by omega)
  rw [hL] at hprefix
  refine Eq.trans (run_add hprefix) ?_
  refine Eq.trans (run_body rfl hne ?_ rfl) rfl
  exact (Nat.zero_add _).trans (toNat_ofNat_of_lt (by omega)).symm

/-! ### The parse -/

/-- A varint read at the cursor, where the reader holds a varint (R124). -/
theorem State.readVarint_of_holdsVarint {s : State} {n : Nat} {v : Word}
    (h : HoldsVarint (fun j => s.byteAt .rx (s.rxCursor.toNat + j)) n v) (hl : s.rxCursor.toNat + n < s.rxFrameLen.toNat) :
    s.readVarint = .ok { s with result := v, rxCursor := BitVec.ofNat 16 (s.rxCursor.toNat + (n + 1)) } :=
  State.readVarint_of_vdec (State.vdec_of_holdsVarint h hl)

/-- The parse of a body that holds a Status Response: a packetID of `n + 1` bytes and value 0, a jsonLength `len` of `m + 1`
bytes, and as many bytes behind them (R130, R131). -/
theorem State.complete_of_response {s : State} {n m : Nat} {len : Word} (hid : HoldsVarint (s.byteAt .rx) n 0)
    (hlen : HoldsVarint (fun j => s.byteAt .rx (n + 1 + j)) m len) (hfits : n + m + 2 + len.toNat ≤ s.rxFrameLen.toNat) :
    s.complete = State.success { s with
      result := len, rxCursor := BitVec.ofNat 16 (n + m + 2 + len.toNat),
      spanOff := BitVec.ofNat 16 (n + m + 2), spanLen := BitVec.ofNat 16 len.toNat } := by
  have hmax := s.rxFrameLen.isLt
  have hcursor : ∀ c, c ≤ s.rxFrameLen.toNat → (BitVec.ofNat 16 c).toNat = c :=
    fun c hc => toNat_ofNat_of_lt (by omega)
  have hc1 := hcursor (n + 1) (by omega)
  have hc2 := hcursor (n + m + 2) (by omega)
  have hread1 : State.readVarint { s with rxCursor := 0 } =
      .ok { s with result := 0, rxCursor := BitVec.ofNat 16 (n + 1) } := by
    rw [State.readVarint_of_holdsVarint (n := n) (v := 0)]
    · simp
    · change HoldsVarint (fun j => s.byteAt .rx (0 + j)) n 0
      simpa only [Nat.zero_add] using hid
    · simp; omega
  have hread2 : State.readVarint { s with result := 0, rxCursor := BitVec.ofNat 16 (n + 1) } =
      .ok { s with result := len, rxCursor := BitVec.ofNat 16 (n + m + 2) } := by
    rw [State.readVarint_of_holdsVarint (n := m) (v := len)]
    · simp only [hc1]
      rw [show n + 1 + (m + 1) = n + m + 2 by omega]
    · simp only [hc1]; exact hlen
    · simp only [hc1]; omega
  unfold State.complete
  simp only [hread1, ne_eq, not_true_eq_false, if_false, hread2]
  rw [State.readSpan_eq, if_neg (by simp only [hc2]; omega)]
  simp only [hc2]

/-! ### A Status Response from its first byte to its last -/

/-- The body of a Status Response with bytes behind the JSON (spec/30_encoding.md R79, R131). -/
def statusResponseBody (json tail : List Byte) : List Byte :=
  [0x00] ++ venc (BitVec.ofNat 32 json.length) ++ json ++ tail

theorem length_statusResponseBody (json tail : List Byte) : (statusResponseBody json tail).length =
    1 + (venc (BitVec.ofNat 32 json.length)).length + json.length + tail.length := by
  simp only [statusResponseBody, List.length_append, List.length_singleton]

/-- The parse of a reader that holds a Status Response body whole (R130, R131): the span is the JSON. -/
theorem State.complete_of_statusResponseBody {s : State} {body json tail : List Byte}
    (hbody : body = statusResponseBody json tail) (hrx : HoldsBytes (s.byteAt .rx) 0 body)
    (hlen : s.rxFrameLen.toNat = body.length) (hmax : body.length ≤ 32768) :
    ∃ off : Nat, off = 1 + (venc (BitVec.ofNat 32 json.length)).length ∧ off + json.length ≤ body.length ∧
      s.bytesFrom .rx off json.length = json ∧
      s.complete = State.success { s with
        result := BitVec.ofNat 32 json.length, rxCursor := BitVec.ofNat 16 (off + json.length),
        spanOff := BitVec.ofNat 16 off, spanLen := BitVec.ofNat 16 json.length } := by
  subst hbody
  rw [length_statusResponseBody] at hlen hmax ⊢
  have hpos := venc_length_pos (BitVec.ofNat 32 json.length)
  have hjson : (BitVec.ofNat 32 json.length).toNat = json.length := toNat_ofNat_of_lt (by omega)
  have hhead := hrx.left.left
  have hid := holdsVarint_of_holdsBytes_venc (v := 0) hhead.left
  have hvlen := holdsVarint_of_holdsBytes_venc hhead.right
  have hspan := State.bytesFrom_of_holdsBytes hrx.left.right
  have hcomplete := State.complete_of_response (s := s) (n := 0) (by simpa [length_venc_zero] using hid)
    (by simpa using hvlen) (by omega)
  refine ⟨_, rfl, by omega, by simpa [Nat.add_comm] using hspan, ?_⟩
  rw [hcomplete, hjson, show 0 + ((venc (BitVec.ofNat 32 json.length)).length - 1) + 2 =
    1 + (venc (BitVec.ofNat 32 json.length)).length by omega]

/-- Settles O46: the length prefix opens the body, the body's bytes fill RX, and its last byte runs the parse. -/
theorem statusResponseIsReceivedWhole : Obligations.StatusResponseIsReceivedWhole := by
  intro s json tail body more hp hacc hcnt hbody hmax hin
  change body = statusResponseBody json tail at hbody
  have hne : body ≠ [] := hbody ▸ List.cons_ne_nil _ _
  have hlen : (s.frameReceived body more).rxFrameLen.toNat = body.length := toNat_ofNat_of_lt (by omega)
  have hrx : HoldsBytes ((s.frameReceived body more).byteAt .rx) 0 body := State.holdsBytes_of_rx_written rfl (by omega)
  obtain ⟨off, hoff, hfits, hjson, hcomplete⟩ := State.complete_of_statusResponseBody hbody hrx hlen hmax
  refine ⟨_, run_frame hp hacc hcnt hne hmax hin, ?_⟩
  rw [hcomplete]
  have hspanOff : (BitVec.ofNat 16 off).toNat = off := toNat_ofNat_of_lt (by omega)
  have hspanLen : (BitVec.ofNat 16 json.length).toNat = json.length := toNat_ofNat_of_lt (by omega)
  have hcursor : (BitVec.ofNat 16 (off + json.length)).toNat = off + json.length := toNat_ofNat_of_lt (by omega)
  refine ⟨rfl, rfl, ?_, hspanLen, hspanOff.trans hoff, ?_, ?_, hlen, hlen, rfl, rfl, rfl, rfl⟩
  · exact toNat_ofNat_of_lt (by omega)
  · simp only [State.success_rxCursor, State.success_spanOff, State.success_spanLen, hcursor, hspanOff, hspanLen]
  · simp only [State.success_spanOff, State.success_spanLen, hspanOff, hspanLen]
    exact hjson

end Sys2Proof.Machine

/-! The varint codec and its two commands (spec/41_varint.md R91 to R94): a decode of bytes that begin with a varint, the byte
window that VENC fills, and what VDEC reads from it. -/

namespace Sys2Proof.Machine

open Sys2Proof

/-! ### The codec -/

/-- A source that gives a varint's bytes decodes to its value, whatever it answers to later pulls (R91). -/
theorem vdec_of_holdsVarint {pull : Nat → Except ErrCause Byte} {f : Nat → Byte} {n : Nat} {v : Word}
    (h : HoldsVarint f n v) (hpull : ∀ j, j ≤ n → pull j = .ok (f j)) : vdec pull = .ok (v, n + 1) := by
  rw [← holdsVarint_accumulateBytes h]
  obtain ⟨hn, hcont, hlast, -⟩ := h
  exact vdec_terminates pull f n hn (fun j hj => ⟨hpull j (by omega), hcont j hj⟩) (hpull n le_rfl) hlast

/-- Settles O17: a varint's bytes, a failing pull and five continuing bytes are the three ways a decode ends. -/
theorem vdecReadsOneVarint : Obligations.VdecReadsOneVarint := fun pull f =>
  ⟨fun _ _ h hpull => vdec_of_holdsVarint h hpull,
    fun n e hn hcont hfail => vdec_source_error pull f n e hn hcont hfail,
    vdec_overlong pull f⟩

/-- Bytes that begin with an encoding hold its value in its length. -/
theorem holdsVarint_of_venc {f : Nat → Byte} {v : Word} (h : ∀ k (hk : k < (venc v).length), f k = (venc v)[k]) :
    HoldsVarint f ((venc v).length - 1) v := by
  have hbytes : HoldsBytes f 0 (venc v) := fun j hj => by rw [Nat.zero_add, h j hj]
  simpa only [Nat.zero_add] using holdsVarint_of_holdsBytes_venc hbytes

/-- The length table of R94, by the number of 7-bit groups. -/
theorem venc_length_eq {v : Word} {n : Nat} (hlow : 2 ^ (7 * n) ≤ v.toNat) (hhigh : v.toNat < 2 ^ (7 * (n + 1))) :
    (venc v).length = n + 1 :=
  le_antisymm (venc_length_le_of_lt v (n + 1) n.succ_pos hhigh) (lt_venc_length_of_le v n hlow)

/-- Settles O16: the rows of the table are the ranges between powers of 128, and an encoding holds its own value. -/
theorem vencLengthTableAndRoundTrip : Obligations.VencLengthTableAndRoundTrip := by
  intro v
  refine ⟨fun h => ?_, fun h h' => ?_, fun h h' => ?_, fun h h' => ?_, fun h => ?_, fun pull hpull => ?_⟩
  · exact le_antisymm (venc_length_le_of_lt v 1 one_pos (by omega)) (venc_length_pos v)
  · exact venc_length_eq (n := 1) (by omega) (by omega)
  · exact venc_length_eq (n := 2) (by omega) (by omega)
  · exact venc_length_eq (n := 3) (by omega) (by omega)
  · exact le_antisymm (venc_length_le v) (lt_venc_length_of_le v 4 (by omega))
  · have hholds : HoldsVarint (fun k => (venc v).getD k 0) ((venc v).length - 1) v :=
      holdsVarint_of_venc fun k hk => List.getD_eq_getElem _ _ hk
    have hpos := venc_length_pos v
    rw [vdec_of_holdsVarint hholds fun j hj => ?_, Nat.sub_add_cancel hpos]
    rw [hpull j (by omega), List.getD_eq_getElem]

/-! ### The commands -/

theorem exec_venc (s : State) : exec .venc s = .next (s.putVarint (venc s.operand)) := rfl

theorem exec_vdec (s : State) : exec .vdec s = .next (s.settle s.decodeWindow) := rfl

/-- Window byte `k` after an encode: the encoding's, and 0x00 past its end (R92). -/
theorem State.vb_putVarint (s : State) (e : List Byte) {k : Nat} (hk : k < 5) : (s.putVarint e).vb k = e.getD k 0 := by
  unfold State.vb
  split_ifs with hlow
  · rw [putVarint_vbytesLo, byteOf, extract_packBytes _ _ _ _ k hlow]
    interval_cases k <;> rfl
  · obtain rfl : k = 4 := by omega
    rfl

theorem State.vlen_putVarint_venc (s : State) (v : Word) : (s.putVarint (venc v)).vlen.toNat = (venc v).length :=
  toNat_ofNat_of_lt (Nat.lt_of_le_of_lt (venc_length_le v) (by norm_num))

/-- Settles O18: VENC writes the window and VLEN, and stores nothing. -/
theorem vencCommandFillsTheWindow : Obligations.VencCommandFillsTheWindow := by
  refine ⟨rfl, fun s => ⟨_, exec_venc s, fun k hk => ?_, s.vlen_putVarint_venc s.operand, rfl, ?_⟩⟩
  · rw [State.vb_putVarint s _ hk]
    split_ifs with hlen
    · rfl
    · exact List.getD_eq_default _ _ (by omega)
  · have hkeep : KeepsBuffers s (s.putVarint (venc s.operand)) := keepsBuffers_exec (by simp) (exec_venc s)
    exact ⟨hkeep.sameBytes .str, hkeep.sameBytes .body, hkeep.sameBytes .rx⟩

/-- VDEC on a window that begins with a varint (R93). -/
theorem exec_vdec_of_holdsVarint {s : State} {n : Nat} {v : Word} (h : HoldsVarint s.vb n v) :
    exec .vdec s = .next { s with result := v, vlen := BitVec.ofNat 3 (n + 1) } := by
  have hdec : vdec s.vbSource = .ok (v, n + 1) := vdec_of_holdsVarint h fun _ _ => rfl
  rw [exec_vdec, State.decodeWindow, hdec]
  rfl

/-- VDEC on a window whose five bytes all continue (R93). -/
theorem exec_vdec_of_overlong {s : State} (h : ∀ j, j < 5 → continues (s.vb j) = true) :
    exec .vdec s = .next (s.raise .overlongVarint) := by
  have hdec : vdec s.vbSource = .error .overlongVarint := vdec_overlong _ s.vb fun j hj => ⟨rfl, h j hj⟩
  rw [exec_vdec, State.decodeWindow, hdec]
  rfl

/-- Settles O19: the window is a source that never fails, so its decode ends with a value or as overlong. -/
theorem vdecCommandReadsTheWindow : Obligations.VdecCommandReadsTheWindow :=
  ⟨rfl, fun _ => ⟨fun _ _ h => exec_vdec_of_holdsVarint h, fun h => exec_vdec_of_overlong h⟩⟩

/-- The window that VENC leaves begins with the varint of its value. -/
theorem State.holdsVarint_putVarint_venc (s : State) (v : Word) :
    HoldsVarint (s.putVarint (venc v)).vb ((venc v).length - 1) v := by
  refine holdsVarint_of_venc fun k hk => ?_
  rw [State.vb_putVarint s _ (Nat.lt_of_lt_of_le hk (venc_length_le v)), List.getD_eq_getElem _ _ hk]

/-- Settles O20: the window holds OPERAND's varint, and the VLEN that VDEC writes is the one VENC left. -/
theorem vdecAfterVencReproducesOperand : Obligations.VdecAfterVencReproducesOperand := by
  intro s t ht
  cases ht
  change exec .vdec (s.putVarint (venc s.operand)) = .next { s.putVarint (venc s.operand) with result := s.operand }
  rw [exec_vdec_of_holdsVarint (s.holdsVarint_putVarint_venc s.operand), Nat.sub_add_cancel (venc_length_pos s.operand),
    ← State.putVarint_vlen s]

end Sys2Proof.Machine

/-! The frame_builder's commands (spec/42_frame_builder.md R100 to R109): what an append leaves, the five commands that end in one
append, and the frame that FB_FINISH assembles from the appended pieces. -/

namespace Sys2Proof.Machine

open Sys2Proof

/-! ### One append -/

theorem bodyAppended_appended {s : State} {bs : List Byte} (hfits : s.txBodyLen.toNat + bs.length ≤ 1022) :
    BodyAppended s (s.appended bs) bs :=
  ⟨State.bodyBytes_appended hfits, State.toNat_appended_txBodyLen hfits, State.byteAt_appended_outside s bs,
    State.byteAt_str_appended s bs, State.byteAt_rx_appended s bs, rfl⟩

/-- A command whose append finds no room changes ERR alone, to CAPACITY_ERROR 2 (R100). -/
theorem State.settle_append_of_full {s : State} {bs : List Byte} (hfull : 1022 < s.txBodyLen.toNat + bs.length) :
    s.settle (s.append bs) = { s with errCode := 4, errSub := 2 } := by
  rw [State.append_of_full hfull]; rfl

/-- Settles O21, by the comparison that append makes before it stores a byte. -/
theorem appendAllOrNothing : Obligations.AppendAllOrNothing := fun s bs =>
  ⟨fun hfits => ⟨s.appended bs, State.append_of_fits hfits, bodyAppended_appended hfits⟩,
    fun hfull => ⟨State.append_of_full hfull, State.settle_append_of_full hfull⟩⟩

/-! ### The commands that append -/

section
variable {i : Instr} {s : State} {bs : List Byte}

theorem exec_append_of_fits (hexec : exec i s = .next (s.settle (s.append bs)))
    (hfits : s.txBodyLen.toNat + bs.length ≤ 1022) : ∃ t, exec i s = .next t ∧ BodyAppended s t bs :=
  ⟨s.appended bs, by rw [hexec, State.append_of_fits hfits]; rfl, bodyAppended_appended hfits⟩

theorem exec_append_of_full (hexec : exec i s = .next (s.settle (s.append bs)))
    (hfull : 1022 < s.txBodyLen.toNat + bs.length) : exec i s = .next { s with errCode := 4, errSub := 2 } := by
  rw [hexec, State.settle_append_of_full hfull]

end

theorem exec_fbWbyte (s : State) :
    exec .fbWbyte s = .next (s.settle (s.append [s.operand.extractLsb' 0 8])) := rfl

theorem exec_fbWvarint (s : State) : exec .fbWvarint s = .next (s.settle (s.append (venc s.operand))) := rfl

theorem State.u16be_operand16 (s : State) :
    u16be s.operand16 = [s.operand.extractLsb' 8 8, s.operand.extractLsb' 0 8] := by
  have hbyte : ∀ lo, lo + 8 ≤ 16 → s.operand16.extractLsb' lo 8 = s.operand.extractLsb' lo 8 := fun lo hlo => by
    apply BitVec.eq_of_getLsbD_eq
    intro m hm
    simp only [State.operand16, BitVec.getLsbD_extractLsb', Nat.zero_add, show lo + m < 16 by omega, decide_true,
      Bool.true_and]
  rw [u16be, hbyte 8 (by omega), hbyte 0 (by omega)]

theorem exec_fbWu16be (s : State) :
    exec .fbWu16be s = .next (s.settle (s.append [s.operand.extractLsb' 8 8, s.operand.extractLsb' 0 8])) := by
  rw [← State.u16be_operand16]; rfl

/-- Settles O23: the append of one byte. -/
theorem fbWbyteAppendsOneByte : Obligations.FbWbyteAppendsOneByte :=
  ⟨rfl, fun s => ⟨exec_append_of_fits (exec_fbWbyte s), fun hfull =>
    exec_append_of_full (exec_fbWbyte s) (Nat.lt_succ_of_le hfull)⟩⟩

/-- Settles O25: the append of an encoding, whose length decides. -/
theorem fbWvarintAppendsTheEncoding : Obligations.FbWvarintAppendsTheEncoding :=
  ⟨rfl, fun s => ⟨exec_append_of_fits (exec_fbWvarint s), exec_append_of_full (exec_fbWvarint s)⟩⟩

/-- Settles O26: the append of two bytes, the high one first. -/
theorem fbWu16beAppendsHighByteFirst : Obligations.FbWu16beAppendsHighByteFirst :=
  ⟨rfl, fun s => ⟨exec_append_of_fits (exec_fbWu16be s), exec_append_of_full (exec_fbWu16be s)⟩⟩

/-! ### The commands that append the STR run -/

theorem State.strBytes_eq (s : State) :
    s.strBytes = (List.range s.strLen.toNat).map (fun i => s.byteAt .str i) := by
  simp [State.strBytes, State.bytesFrom]

theorem State.strRun_of_fits {s : State} (hlen : s.strLen.toNat ≤ 256) : s.strRun = .ok s.strBytes := by
  rw [State.strRun_eq, if_neg (by omega)]

theorem State.strRun_of_too_long {s : State} (hlen : 256 < s.strLen.toNat) : s.strRun = .error .strTooLong := by
  rw [State.strRun_eq, if_pos hlen]

theorem exec_fbWbytes (s : State) : exec .fbWbytes s = .next (s.settle s.appendRun) := rfl

theorem exec_fbWbytes_of_too_long {s : State} (hlen : 256 < s.strLen.toNat) :
    exec .fbWbytes s = .next (s.raise .strTooLong) := by
  rw [exec_fbWbytes, State.appendRun, State.strRun_of_too_long hlen]
  rfl

theorem exec_fbWbytes_of_fits {s : State} (hlen : s.strLen.toNat ≤ 256) :
    exec .fbWbytes s = .next (s.settle (s.append s.strBytes)) := by
  rw [exec_fbWbytes, State.appendRun, State.strRun_of_fits hlen]

theorem exec_fbWstr (s : State) : exec .fbWstr s = .next (s.settle s.appendString) := rfl

theorem exec_fbWstr_of_too_long {s : State} (hlen : 256 < s.strLen.toNat) :
    exec .fbWstr s = .next (s.raise .strTooLong) := by
  rw [exec_fbWstr, State.appendString, State.strRun_of_too_long hlen]
  rfl

theorem exec_fbWstr_of_fits {s : State} (hlen : s.strLen.toNat ≤ 256) :
    exec .fbWstr s = .next (s.settle (s.append (venc (s.strLen.setWidth 32) ++ s.strBytes))) := by
  rw [exec_fbWstr, State.appendString, State.strRun_of_fits hlen]

/-- Settles O24: STR_LEN is checked first, then the room for the run. -/
theorem fbWbytesAppendsTheStrRun : Obligations.FbWbytesAppendsTheStrRun := by
  refine ⟨rfl, fun s => ⟨exec_fbWbytes_of_too_long, fun hlen hfits => ?_, fun hlen hfull => ?_⟩⟩
  · rw [← State.strBytes_eq]
    exact exec_append_of_fits (exec_fbWbytes_of_fits hlen) (by rwa [State.length_strBytes])
  · exact exec_append_of_full (exec_fbWbytes_of_fits hlen) (by rwa [State.length_strBytes])

/-- Settles O27: STR_LEN is checked first, then the room for the length and the run together. -/
theorem fbWstrAppendsTheLengthPrefixedString : Obligations.FbWstrAppendsTheLengthPrefixedString := by
  refine ⟨rfl, fun s => ⟨exec_fbWstr_of_too_long, fun hlen hfits => ?_, fun hlen hfull => ?_⟩⟩
  · rw [← State.strBytes_eq]
    exact exec_append_of_fits (exec_fbWstr_of_fits hlen) (by rw [List.length_append, State.length_strBytes]; omega)
  · exact exec_append_of_full (exec_fbWstr_of_fits hlen) (by rw [List.length_append, State.length_strBytes]; omega)

/-! ### FB_RESET and FB_FINISH -/

theorem exec_fbReset (s : State) : exec .fbReset s = .next s.builderReset := rfl

theorem exec_fbFinish (s : State) : exec .fbFinish s = .next s.finish := rfl

/-- Settles O22: four registers are written, with constants, and no buffer is. -/
theorem fbResetEmptiesTheBuilder : Obligations.FbResetEmptiesTheBuilder := by
  refine ⟨rfl, fun s => ⟨s.builderReset, exec_fbReset s, rfl, ?_⟩⟩
  have hkeep : KeepsBuffers s s.builderReset := keepsBuffers_exec (by simp) (exec_fbReset s)
  exact ⟨hkeep.sameBytes .body, hkeep.sameBytes .str, hkeep.sameBytes .rx, exec_fbReset s.builderReset⟩

/-- A finished builder has the prefix already that finishing it again would write (R107). -/
theorem State.finish_finish (s : State) : s.finish.finish = s.finish := by
  have hpfx : s.finish.finish.pfx = s.finish.pfx := by
    rw [State.finish_pfx, State.finish_txBodyLen, State.finish_pfx, List.drop_left]
  change { s.finish with pfx := s.finish.finish.pfx } = s.finish
  rw [hpfx]

/-- Settles O28: the frame is what `frameBytes_finish` says, and the body's ten-bit length takes at most two prefix bytes. -/
theorem fbFinishAssemblesTheFrame : Obligations.FbFinishAssemblesTheFrame := by
  refine ⟨rfl, fun s => ⟨s.finish, exec_fbFinish s, rfl, s.toNat_finish_plen, s.finish_pfx_take, ?_,
    s.frameBytes_finish, ?_⟩⟩
  · rw [s.toNat_finish_txFrameLen, s.toNat_finish_plen]
  have hkeep : KeepsBuffers s s.finish := keepsBuffers_exec (by simp) (exec_fbFinish s)
  refine ⟨rfl, hkeep.sameBytes .body, hkeep.sameBytes .str, hkeep.sameBytes .rx, ?_, fun hbody => ?_⟩
  · rw [exec_fbFinish, State.finish_finish]
  · rw [s.toNat_finish_txFrameLen, s.toNat_finish_plen]
    have hprefix := venc_bodyLen_length_le s.txBodyLen
    omega

/-! ### The length law -/

theorem State.length_bodyBytes (s : State) : s.bodyBytes.length = s.txBodyLen.toNat := State.length_bytesFrom ..

/-- Appends that fit leave the body followed by their pieces, however the payload was cut. -/
theorem State.bodyBytes_foldl_appended {chunks : List (List Byte)} {s : State}
    (hfits : s.txBodyLen.toNat + chunks.flatten.length ≤ 1022) :
    (chunks.foldl State.appended s).bodyBytes = s.bodyBytes ++ chunks.flatten := by
  induction chunks generalizing s with
  | nil => simp
  | cons bs rest ih =>
    rw [List.flatten_cons, List.length_append] at hfits
    have hfirst : s.txBodyLen.toNat + bs.length ≤ 1022 := by omega
    rw [List.foldl_cons, ih (by rw [State.toNat_appended_txBodyLen hfirst]; omega), State.bodyBytes_appended hfirst,
      List.flatten_cons, List.append_assoc]

/-- The body that FB_RESET, an encoding and pieces of payload leave (R101, R104, R100). -/
theorem State.bodyBytes_payload {s : State} {p : Word} {chunks : List (List Byte)}
    (hfits : (venc p).length + chunks.flatten.length ≤ 1022) :
    (chunks.foldl State.appended (s.builderReset.appended (venc p))).bodyBytes = venc p ++ chunks.flatten := by
  have hzero : s.builderReset.txBodyLen.toNat = 0 := rfl
  have hid : s.builderReset.txBodyLen.toNat + (venc p).length ≤ 1022 := by omega
  rw [State.bodyBytes_foldl_appended (by rw [State.toNat_appended_txBodyLen hid]; omega), State.bodyBytes_appended hid,
    State.bodyBytes_builderReset, List.nil_append]

theorem State.frameByte_finish_prefix (s : State) (i : Nat) (hi : i < (venc (s.txBodyLen.setWidth 32)).length) :
    s.finish.frameByte i = (venc (s.txBodyLen.setWidth 32))[i] := by
  rw [State.frameByte, if_pos (by rwa [State.toNat_finish_plen]), State.finish_pfx, List.getD_append _ _ _ _ hi,
    List.getD_eq_getElem _ _ hi]

/-- A source that gives the bytes of an encoding decodes to its value and its length (41_varint.md R94). -/
theorem vdec_of_venc_bytes {pull : Nat → Except ErrCause Byte} {v : Word}
    (hpull : ∀ k (hk : k < (venc v).length), pull k = .ok (venc v)[k]) : vdec pull = .ok (v, (venc v).length) := by
  obtain ⟨-, -, -, -, -, hroundTrip⟩ := vencLengthTableAndRoundTrip v
  exact hroundTrip pull hpull

/-- The first varint of a finished frame is the body's length (R107, R109). -/
theorem State.vdec_frame_finish (s : State) :
    vdec (fun i => if i < s.finish.txFrameLen.toNat then .ok (s.finish.frameByte i) else .error .readPastEnd) =
      .ok (s.txBodyLen.setWidth 32, (venc (s.txBodyLen.setWidth 32)).length) := by
  refine vdec_of_venc_bytes fun k hk => ?_
  have hframe := s.toNat_finish_txFrameLen
  rw [if_pos (by omega), s.frameByte_finish_prefix k hk]

/-- Settles O29: the frame is the body's length as a varint and then the body, which is the pieces in order. -/
theorem frameLengthLaw : Obligations.FrameLengthLaw := by
  intro s p chunks hfits
  have hbody := State.bodyBytes_payload (s := s) hfits
  generalize chunks.foldl State.appended (s.builderReset.appended (venc p)) = u at hbody ⊢
  refine ⟨u.finish, (venc (u.txBodyLen.setWidth 32)).length, rfl, rfl, ?_, ?_⟩
  · rw [← List.length_append, ← hbody, State.length_bodyBytes, BitVec.ofNat_toNat]
    exact u.vdec_frame_finish
  · rw [State.frameBytes_finish, List.drop_left, hbody]

end Sys2Proof.Machine

/-! The frame_parser's commands (spec/43_frame_parser.md R121 to R125): the ways a read of the reader ends, and each command as one
read. -/

namespace Sys2Proof.Machine

open Sys2Proof

/-! ### The ways a read ends -/

theorem State.loadReader_of_fits {s : State} (h : s.operand.toNat ≤ 32768) :
    s.loadReader = .ok { s with rxFrameLen := BitVec.ofNat 16 s.operand.toNat, rxCursor := 0 } :=
  if_neg (Nat.not_lt.2 h)

theorem State.loadReader_of_too_large {s : State} (h : 32768 < s.operand.toNat) :
    s.loadReader = .error .rxLengthTooLarge :=
  if_pos h

theorem State.readByte_of_lt {s : State} (h : s.rxCursor.toNat < s.rxFrameLen.toNat) :
    s.readByte = .ok { s with result := (s.byteAt .rx s.rxCursor.toNat).setWidth 32,
                              rxCursor := BitVec.ofNat 16 (s.rxCursor.toNat + 1) } := by
  rw [State.readByte, State.readerSource_of_lt (k := 0) h]
  rfl

theorem State.readByte_of_ge {s : State} (h : s.rxFrameLen.toNat ≤ s.rxCursor.toNat) :
    s.readByte = .error .readPastEnd := by
  rw [State.readByte, State.readerSource_of_ge (k := 0) h]

theorem State.readSpan_of_fits {s : State} {n : Nat} (h : n ≤ s.rxFrameLen.toNat - s.rxCursor.toNat) :
    s.readSpan n = .ok { s with spanOff := s.rxCursor, spanLen := BitVec.ofNat 16 n,
                                rxCursor := BitVec.ofNat 16 (s.rxCursor.toNat + n) } := by
  rw [State.readSpan_eq, if_neg (Nat.not_lt.2 h)]

theorem State.readSpan_of_short {s : State} {n : Nat} (h : s.rxFrameLen.toNat - s.rxCursor.toNat < n) :
    s.readSpan n = .error .readPastEnd := by
  rw [State.readSpan_eq, if_pos h]

/-- A span of no byte succeeds wherever the cursor is (R123; log 20). -/
theorem State.readSpan_zero (s : State) : s.readSpan 0 = .ok { s with spanOff := s.rxCursor, spanLen := 0 } := by
  rw [State.readSpan_of_fits (Nat.zero_le _), Nat.add_zero, BitVec.ofNat_toNat, BitVec.setWidth_eq]
  rfl

/-- Before the end of the reader, a source whose bytes continue gives each of them (R120). -/
theorem State.readerSource_continues {s : State} {k : Nat}
    (hc : ∀ j, j < k → continues (s.byteAt .rx (s.rxCursor.toNat + j)) = true)
    (hl : s.rxCursor.toNat + k ≤ s.rxFrameLen.toNat) :
    ∀ j, j < k → s.readerSource j = .ok (s.byteAt .rx (s.rxCursor.toNat + j)) ∧
      continues (s.byteAt .rx (s.rxCursor.toNat + j)) = true :=
  fun j hj => ⟨State.readerSource_of_lt (by omega), hc j hj⟩

/-- With no byte left the first pull of a varint fails (R124). -/
theorem State.readVarint_of_end {s : State} (h : s.rxFrameLen.toNat ≤ s.rxCursor.toNat) :
    s.readVarint = .error .readPastEnd :=
  State.readVarint_of_vdec_error <| vdec_source_error _ (s.byteAt .rx) 0 _ (by omega)
    (fun j hj => absurd hj (Nat.not_lt_zero j)) (State.readerSource_of_ge h)

/-- A varint whose bytes continue up to the end of the reader is cut off there: the failing pull is the first one past the end,
number RX_FRAME_LEN - RX_CURSOR (R124). -/
theorem State.readVarint_of_cut_off {s : State} {k : Nat} (hk : k < 5)
    (hc : ∀ j, j < k → continues (s.byteAt .rx (s.rxCursor.toNat + j)) = true)
    (hl : s.rxFrameLen.toNat ≤ s.rxCursor.toNat + k) : s.readVarint = .error .readPastEnd := by
  by_cases hend : s.rxFrameLen.toNat ≤ s.rxCursor.toNat
  · exact State.readVarint_of_end hend
  · apply State.readVarint_of_vdec_error
    exact vdec_source_error _ _ (s.rxFrameLen.toNat - s.rxCursor.toNat) _ (by omega)
      (State.readerSource_continues (fun j hj => hc j (by omega)) (by omega)) (State.readerSource_of_ge (by omega))

/-- Five bytes inside the reader that all continue are overlong (R124). -/
theorem State.readVarint_of_overlong {s : State}
    (hc : ∀ j, j < 5 → continues (s.byteAt .rx (s.rxCursor.toNat + j)) = true)
    (hl : s.rxCursor.toNat + 5 ≤ s.rxFrameLen.toNat) : s.readVarint = .error .overlongVarint :=
  State.readVarint_of_vdec_error (vdec_overlong _ _ (State.readerSource_continues hc hl))

/-! ### The commands -/

theorem exec_fpLoad (s : State) : exec .fpLoad s = .next (s.settle s.loadReader) := rfl

theorem exec_fpRbyte (s : State) : exec .fpRbyte s = .next (s.settle s.readByte) := rfl

theorem exec_fpRbytes (s : State) : exec .fpRbytes s = .next (s.settle (s.readSpan s.operand.toNat)) := rfl

theorem exec_fpRvarint (s : State) : exec .fpRvarint s = .next (s.settle s.readVarint) := rfl

theorem exec_fpRstr (s : State) : exec .fpRstr s = .next (s.settle (s.readSpan s.operand.toNat)) := rfl

theorem KeepsBuffers.sameBytes_all {s t : State} (h : KeepsBuffers s t) :
    SameBytes .rx s t ∧ SameBytes .str s t ∧ SameBytes .body s t :=
  ⟨h.sameBytes .rx, h.sameBytes .str, h.sameBytes .body⟩

section
variable {i : Instr} {s t : State} {r : Except ErrCause State}

theorem exec_of_ok (hexec : exec i s = .next (s.settle r)) (h : r = .ok t) : exec i s = .next t := by
  rw [hexec, h, State.settle]

/-- A short command whose operation fails changes ERR alone (spec/60_exceptions.md R171). -/
theorem exec_of_error {e : ErrCause} (hexec : exec i s = .next (s.settle r)) (h : r = .error e) :
    exec i s = .next { s with errCode := e.code, errSub := e.sub } := by
  rw [hexec, h, State.settle, State.raise]

end

/-- Settles O30, by the comparison of OPERAND with the size of RX. -/
theorem fpLoadBuildsTheReader : Obligations.FpLoadBuildsTheReader := by
  refine ⟨rfl, fun s => ⟨fun hfits => ?_, fun hbig => ?_⟩⟩
  · have hload := State.loadReader_of_fits hfits
    exact ⟨_, exec_of_ok (exec_fpLoad s) hload, toNat_ofNat_of_lt (by omega), rfl, rfl,
      (keepsBuffers_loadReader hload).sameBytes_all⟩
  · exact exec_of_error (exec_fpLoad s) (State.loadReader_of_too_large hbig)

/-- Settles O31: one pull, whose byte keeps its value in the wider RESULT. -/
theorem fpRbyteReadsOneByte : Obligations.FpRbyteReadsOneByte := by
  refine ⟨rfl, fun s => ⟨fun hlt => ?_, fun hend => ?_⟩⟩
  · have hread := State.readByte_of_lt hlt
    have hmax := s.rxFrameLen.isLt
    exact ⟨_, exec_of_ok (exec_fpRbyte s) hread, BitVec.toNat_setWidth_of_le (by decide),
      toNat_ofNat_of_lt (by omega), rfl, (keepsBuffers_readByte hread).sameBytes_all⟩
  · exact exec_of_error (exec_fpRbyte s) (State.readByte_of_ge hend)

section
variable {i : Instr} {s : State} (hexec : exec i s = .next (s.settle (s.readSpan s.operand.toNat)))
include hexec

/-- A span command whose bytes remain (R123, R125). -/
theorem exec_span_of_fits (hfits : s.rxCursor.toNat + s.operand.toNat ≤ s.rxFrameLen.toNat) :
    ∃ t, exec i s = .next t ∧ t.spanOff = s.rxCursor ∧ t.spanLen.toNat = s.operand.toNat ∧
      t.rxCursor.toNat = s.rxCursor.toNat + s.operand.toNat ∧
      t = { s with spanOff := t.spanOff, spanLen := t.spanLen, rxCursor := t.rxCursor } ∧
      SameBytes .rx s t ∧ SameBytes .str s t ∧ SameBytes .body s t := by
  have hread := State.readSpan_of_fits (s := s) (n := s.operand.toNat) (by omega)
  have hmax := s.rxFrameLen.isLt
  exact ⟨_, exec_of_ok hexec hread, rfl, toNat_ofNat_of_lt (by omega), toNat_ofNat_of_lt (by omega), rfl,
    (keepsBuffers_readSpan hread).sameBytes_all⟩

/-- A span command of which fewer bytes remain (R123, R125). -/
theorem exec_span_of_short (hshort : s.rxFrameLen.toNat - s.rxCursor.toNat < s.operand.toNat) :
    exec i s = .next { s with errCode := 3, errSub := 2 } :=
  exec_of_error hexec (State.readSpan_of_short hshort)

/-- A span command of no byte over the empty reader (log 20). -/
theorem exec_span_of_empty (hcursor : s.rxCursor = 0) (hzero : s.operand = 0) :
    exec i s = .next { s with spanOff := 0, spanLen := 0 } := by
  have hcount : s.operand.toNat = 0 := congrArg BitVec.toNat hzero
  rw [hcount] at hexec
  simpa only [hcursor] using exec_of_ok hexec s.readSpan_zero

end

/-- Settles O32: the span command FP_RBYTES. -/
theorem fpRbytesReturnsTheSpan : Obligations.FpRbytesReturnsTheSpan :=
  ⟨rfl, fun s => ⟨exec_span_of_fits (exec_fpRbytes s), fun hshort _ => exec_span_of_short (exec_fpRbytes s) (by omega)⟩⟩

/-- Settles O33: the span command FP_RSTR, which looks at no byte. -/
theorem fpRstrReturnsTheSpan : Obligations.FpRstrReturnsTheSpan :=
  ⟨rfl, fun s => ⟨exec_span_of_fits (exec_fpRstr s), fun hshort _ => exec_span_of_short (exec_fpRstr s) (by omega)⟩⟩

/-- Settles O34: the three ways a varint read at the cursor ends. -/
theorem fpRvarintReadsAVarint : Obligations.FpRvarintReadsAVarint := by
  refine ⟨rfl, fun s => ⟨fun n v hholds hlt => ?_, fun k hk hc hend => ?_, fun hc hin => ?_⟩⟩
  · have hread := State.readVarint_of_holdsVarint hholds hlt
    have hmax := s.rxFrameLen.isLt
    exact ⟨_, exec_of_ok (exec_fpRvarint s) hread, rfl, toNat_ofNat_of_lt (by omega), rfl,
      (keepsBuffers_readVarint hread).sameBytes_all⟩
  · exact exec_of_error (exec_fpRvarint s) (State.readVarint_of_cut_off hk hc hend)
  · exact exec_of_error (exec_fpRvarint s) (State.readVarint_of_overlong hc hin)

/-- Settles O58: no byte remains, so a read of one is past the end and a span of none fits. -/
theorem emptyReaderFailsEveryReadOfAByte : Obligations.EmptyReaderFailsEveryReadOfAByte := by
  intro s hlen hcursor
  have hlenNat : s.rxFrameLen.toNat = 0 := congrArg BitVec.toNat hlen
  refine ⟨?_, ?_, fun hne => ?_, fun hzero => ?_⟩
  · exact exec_of_error (exec_fpRbyte s) (State.readByte_of_ge (by omega))
  · exact exec_of_error (exec_fpRvarint s) (State.readVarint_of_end (by omega))
  · have hpos : 0 < s.operand.toNat := Nat.pos_of_ne_zero fun h => hne (BitVec.eq_of_toNat_eq h)
    exact ⟨exec_span_of_short (exec_fpRbytes s) (by omega), exec_span_of_short (exec_fpRstr s) (by omega)⟩
  · exact ⟨exec_span_of_empty (exec_fpRbytes s) hcursor hzero, exec_span_of_empty (exec_fpRstr s) hcursor hzero⟩

end Sys2Proof.Machine

/-! A run's received bytes in every case (spec/43_frame_parser.md R126, R127, R130): the byte that ends or continues the length
prefix, the byte that is stored, and the parse with each of its failures. -/

namespace Sys2Proof.Machine

open Sys2Proof

/-! ### The parse, check by check -/

/-- `s` with its parse come to byte `c` of the reader and RESULT `r`. -/
def State.parsedTo (s : State) (r : Word) (c : Nat) : State := { s with result := r, rxCursor := BitVec.ofNat 16 c }

@[simp] theorem State.parsedTo_result (s : State) (r : Word) (c : Nat) : (s.parsedTo r c).result = r := rfl

@[simp] theorem State.parsedTo_rxFrameLen (s : State) (r : Word) (c : Nat) :
    (s.parsedTo r c).rxFrameLen = s.rxFrameLen := rfl

theorem State.toNat_parsedTo_rxCursor {s : State} {r : Word} {c : Nat} (h : c ≤ s.rxFrameLen.toNat) :
    (s.parsedTo r c).rxCursor.toNat = c :=
  toNat_ofNat_of_lt (h.trans_lt s.rxFrameLen.isLt)

section
variable {s : State} {r : Word} {c : Nat}

theorem State.readVarint_parsedTo {n : Nat} {v : Word} (h : HoldsVarint (fun j => s.byteAt .rx (c + j)) n v)
    (hl : c + n < s.rxFrameLen.toNat) : (s.parsedTo r c).readVarint = .ok (s.parsedTo v (c + (n + 1))) := by
  have hcursor := s.toNat_parsedTo_rxCursor (r := r) (c := c) (by omega)
  have hread := State.readVarint_of_holdsVarint (s := s.parsedTo r c) (n := n) (v := v) (by rw [hcursor]; exact h)
    (by rw [hcursor]; exact hl)
  rw [hread, hcursor]
  rfl

theorem State.readVarint_parsedTo_of_cut_off (hc : c ≤ s.rxFrameLen.toNat) {k : Nat} (hk : k < 5)
    (h : ∀ j, j < k → continues (s.byteAt .rx (c + j)) = true) (hl : s.rxFrameLen.toNat ≤ c + k) :
    (s.parsedTo r c).readVarint = .error .readPastEnd := by
  have hcursor := s.toNat_parsedTo_rxCursor (r := r) hc
  exact State.readVarint_of_cut_off hk (by rw [hcursor]; exact h) (by rw [hcursor]; exact hl)

theorem State.readVarint_parsedTo_of_overlong (h : ∀ j, j < 5 → continues (s.byteAt .rx (c + j)) = true)
    (hl : c + 5 ≤ s.rxFrameLen.toNat) : (s.parsedTo r c).readVarint = .error .overlongVarint := by
  have hcursor := s.toNat_parsedTo_rxCursor (r := r) (c := c) (by omega)
  exact State.readVarint_of_overlong (by rw [hcursor]; exact h) (by rw [hcursor]; exact hl)

end

section
variable {s : State}

/-- The packetID read fails the parse before anything but RX_CURSOR is written (R130). -/
theorem State.complete_of_packetId_error {e : ErrCause} (h : (s.parsedTo s.result 0).readVarint = .error e) :
    s.complete = State.fail { s with rxCursor := 0 } e := by
  have hread : State.readVarint { s with rxCursor := 0 } = .error e := h
  unfold State.complete
  simp only [hread]

variable {n : Nat} {pid : Word} (hid : HoldsVarint (s.byteAt .rx) n pid) (hlt : n < s.rxFrameLen.toNat)
include hid hlt

/-- The packetID that the bytes of RX hold is what the first read of the parse gives (R130). -/
theorem State.readVarint_packetId : State.readVarint { s with rxCursor := 0 } = .ok (s.parsedTo pid (n + 1)) := by
  have hread := State.readVarint_parsedTo (s := s) (r := s.result) (c := 0) (n := n) (v := pid)
    (by simpa only [Nat.zero_add] using hid) (by omega)
  rwa [Nat.zero_add] at hread

/-- A packetID other than 0 fails the parse (R130). -/
theorem State.complete_of_packetId_ne_zero (hne : pid ≠ 0) :
    s.complete = (s.parsedTo pid (n + 1)).fail .unexpectedPacketId := by
  unfold State.complete
  simp only [State.readVarint_packetId hid hlt]
  exact if_pos hne

end

section
variable {s : State} {n : Nat} (hid : HoldsVarint (s.byteAt .rx) n 0) (hlt : n < s.rxFrameLen.toNat)
include hid hlt

/-- The jsonLength read fails the parse behind a good packetID (R130). -/
theorem State.complete_of_length_error {e : ErrCause} (h : (s.parsedTo 0 (n + 1)).readVarint = .error e) :
    s.complete = (s.parsedTo 0 (n + 1)).fail e := by
  unfold State.complete
  simp only [State.readVarint_packetId hid hlt, State.parsedTo_result, ne_eq, not_true_eq_false, if_false, h]

/-- A jsonLength that exceeds what remains behind it fails the parse (R130). -/
theorem State.complete_of_span_short {m : Nat} {len : Word} (hlen : HoldsVarint (fun j => s.byteAt .rx (n + 1 + j)) m len)
    (hin : n + 1 + m < s.rxFrameLen.toNat) (hshort : s.rxFrameLen.toNat < n + m + 2 + len.toNat) :
    s.complete = (s.parsedTo len (n + m + 2)).fail .readPastEnd := by
  have hread : (s.parsedTo 0 (n + 1)).readVarint = .ok (s.parsedTo len (n + m + 2)) := by
    rw [State.readVarint_parsedTo hlen hin, show n + 1 + (m + 1) = n + m + 2 by omega]
  have hcursor := s.toNat_parsedTo_rxCursor (r := len) (c := n + m + 2) (by omega)
  have hspan : (s.parsedTo len (n + m + 2)).readSpan len.toNat = .error .readPastEnd :=
    State.readSpan_of_short (by rw [hcursor]; simp only [State.parsedTo_rxFrameLen]; omega)
  unfold State.complete
  simp only [State.readVarint_packetId hid hlt, State.parsedTo_result, ne_eq, not_true_eq_false, if_false, hread, hspan]

end

/-- Settles O45, in the order of the checks: the packetID's read, its value, the jsonLength's read, and the span. -/
theorem responseParse : Obligations.ResponseParse := by
  refine ⟨fun s k hk hc hend => ?_, fun s hc hin => ?_, fun s n pid hid hlt hne => ?_, fun s n hid hlt =>
    ⟨fun k hk hc hend => ?_, fun hc hin => ?_, fun m len hlen hin => ⟨fun hshort => ?_, fun hfits => ?_⟩⟩⟩
  · exact State.complete_of_packetId_error (State.readVarint_parsedTo_of_cut_off (Nat.zero_le _) hk
      (by simp only [Nat.zero_add]; exact hc) (by omega))
  · exact State.complete_of_packetId_error (State.readVarint_parsedTo_of_overlong
      (by simp only [Nat.zero_add]; exact hc) (by omega))
  · exact State.complete_of_packetId_ne_zero hid hlt hne
  · exact State.complete_of_length_error hid hlt (State.readVarint_parsedTo_of_cut_off hlt hk hc hend)
  · exact State.complete_of_length_error hid hlt (State.readVarint_parsedTo_of_overlong hc (by omega))
  · exact State.complete_of_span_short hid hlt hlen hin hshort
  · exact State.complete_of_response hid hlen hfits

/-! ### The length prefix -/

theorem State.rxLengthByte_of_overlong {s : State} {b : Byte} (hb : continues b = true) (hc : s.lcnt.toNat = 4) :
    s.rxLengthByte b =
      State.fail { s with lacc := vdecAccumulate s.lacc s.lcnt.toNat b, lcnt := 5 } .overlongVarint := by
  have hcount : BitVec.ofNat 3 (s.lcnt.toNat + 1) = 5 := by rw [hc]; rfl
  simp only [State.rxLengthByte, hb, if_true, hcount]

theorem State.rxLengthByte_of_too_large {s : State} {b : Byte} (hb : continues b = false)
    (hL : 32768 < (vdecAccumulate s.lacc s.lcnt.toNat b).toNat) :
    s.rxLengthByte b = State.fail { s with lacc := vdecAccumulate s.lacc s.lcnt.toNat b,
                                           lcnt := BitVec.ofNat 3 (s.lcnt.toNat + 1) } .rxLengthTooLarge := by
  unfold State.rxLengthByte
  rw [if_neg (Bool.eq_false_iff.1 hb)]
  exact if_pos hL

/-- A length prefix of 0 is parsed at once (R126). -/
theorem State.rxLengthByte_of_zero {s : State} {b : Byte} (hb : continues b = false)
    (hL : vdecAccumulate s.lacc s.lcnt.toNat b = 0) :
    s.rxLengthByte b =
      State.complete { s with lacc := 0, lcnt := BitVec.ofNat 3 (s.lcnt.toNat + 1), rxFrameLen := 0, rxRcvd := 0 } := by
  obtain ⟨L, c, hL', rfl, ⟨hb', -⟩ | ⟨e, ⟨hb', -⟩ | ⟨-, hbig⟩, -⟩ | ⟨-, -, ht⟩ | ⟨-, hne, -⟩⟩ := s.rxLengthByte_cases b
  all_goals obtain rfl : L = 0 := hL'.trans hL
  · simp [hb] at hb'
  · simp [hb] at hb'
  · exact absurd hbig (by decide)
  · exact ht
  · exact absurd rfl hne

/-- The parse of no byte at all is cut off in its packetID (R130). -/
theorem State.complete_of_empty {s : State} (h : s.rxFrameLen = 0) :
    s.complete = State.fail { s with rxCursor := 0 } .readPastEnd :=
  State.complete_of_packetId_error (State.readVarint_of_end (congrArg BitVec.toNat h).le)

/-- Settles O43: the byte continues the prefix, below the fifth byte or at it, or ends it with a length too large, legal or 0. -/
theorem rxByteDecodesTheLengthPrefix : Obligations.RxByteDecodesTheLengthPrefix := by
  intro s b rest L hin hp hcnt hL
  change L = vdecAccumulate s.lacc s.lcnt.toNat b at hL
  subst hL
  have hcount : (BitVec.ofNat 3 (s.lcnt.toNat + 1)).toNat = s.lcnt.toNat + 1 := toNat_ofNat_of_lt (by omega)
  rw [step_rxByte_recvLen hin hp]
  refine ⟨fun hb hc => ?_, fun hb hc => ?_, fun hb hbig => ?_, fun hb hpos hfits => ?_, fun hb hzero => ?_⟩
  · exact ⟨_, congrArg _ (State.rxLengthByte_of_continues hb hc), hcount, rfl⟩
  · exact congrArg _ (State.rxLengthByte_of_overlong hb hc)
  · exact ⟨_, congrArg _ (State.rxLengthByte_of_too_large hb hbig), hcount, rfl⟩
  · have hne : vdecAccumulate s.lacc s.lcnt.toNat b ≠ 0 := fun h => hpos.ne' (congrArg BitVec.toNat h)
    have hlen : (BitVec.ofNat 16 (vdecAccumulate s.lacc s.lcnt.toNat b).toNat).toNat =
        (vdecAccumulate s.lacc s.lcnt.toNat b).toNat := toNat_ofNat_of_lt (by omega)
    exact ⟨_, congrArg _ (State.rxLengthByte_of_last hb rfl hne hfits), hcount, hlen, rfl⟩
  · exact ⟨{ s with inputs := rest, lacc := 0, lcnt := BitVec.ofNat 3 (s.lcnt.toNat + 1), rxFrameLen := 0, rxRcvd := 0 }, _,
      hcount, rfl, rfl, congrArg _ (State.rxLengthByte_of_zero hb hzero), State.complete_of_empty rfl⟩

/-! ### The body -/

/-- `s` with the body byte `b` stored at RX[RX_RCVD] and counted, the schedule at `ins` (R127). -/
def State.bodyByteStored (s : State) (b : Byte) (ins : List Input) : State :=
  { s with rx := Mem.writeRun 32768 s.rx s.rxRcvd.toNat [b], rxRcvd := BitVec.ofNat 16 (s.rxRcvd.toNat + 1), inputs := ins }

theorem State.byteAt_bodyByteStored {s : State} {b : Byte} {ins : List Input} (h : s.rxRcvd.toNat < 32768) :
    (s.bodyByteStored b ins).byteAt .rx s.rxRcvd.toNat = b :=
  State.holdsBytes_of_rx_written (s := s.bodyByteStored b ins) rfl h 0 Nat.one_pos

theorem State.sameBytesOutside_bodyByteStored (s : State) (b : Byte) (ins : List Input) :
    SameBytesOutside .rx s.rxRcvd.toNat 1 s (s.bodyByteStored b ins) := fun i hi =>
  congrArg (fun o => o.getD (Config.drawnByte .rx s.draws i)) (Mem.lookup_writeRun_outside 32768 s.rx s.rxRcvd.toNat i [b] hi)

/-- The byte that completes the frame leaves the state whose body is complete. -/
theorem State.bodyByteStored_eq_bodyReceived {s : State} {b : Byte} {ins : List Input}
    (h : s.rxRcvd.toNat + 1 = s.rxFrameLen.toNat) : s.bodyByteStored b ins = s.bodyReceived [b] ins := by
  rw [State.bodyByteStored, h, BitVec.ofNat_toNat, BitVec.setWidth_eq, State.bodyReceived]

/-- Settles O44: the byte is stored either way, and the last one starts the parse. -/
theorem rxByteStoresTheBody : Obligations.RxByteStoresTheBody := by
  intro s b rest hin hp hlt hmax
  refine ⟨s.bodyByteStored b rest, State.byteAt_bodyByteStored (by omega), toNat_rxRcvd_next hlt,
    s.sameBytesOutside_bodyByteStored b rest, fun _ => rfl, fun _ => rfl, rfl, step_rxByte_more hin hp, fun hlast => ?_⟩
  rw [State.bodyByteStored_eq_bodyReceived hlast]
  exact step_rxByte_last hin hp hlast

end Sys2Proof.Machine

/-! The start of a run, the events that end it at once, the tick, and where an event has a step
(spec/44_handshake_fsm.md R142, R144, R150 to R152, R157). -/

namespace Sys2Proof.Machine

open Sys2Proof

/-! ### HS_START and the events that fail a run -/

theorem exec_hsStart_of_too_long {s : State} (h : 256 < s.strLen.toNat) : exec .hsStart s = .next (s.fail .strTooLong) :=
  congrArg Host.Outcome.next (if_pos h)

theorem exec_hsStart_of_fits {s : State} (h : s.strLen.toNat ≤ 256) : exec .hsStart s = .next s.startRun :=
  congrArg Host.Outcome.next (if_neg (by simpa using h))

/-- Settles O38, by R142's start check. -/
theorem hsStartBeginsOrFailsTheRun : Obligations.HsStartBeginsOrFailsTheRun := by
  refine ⟨by decide, fun s => ⟨fun hlong => exec_hsStart_of_too_long hlong, fun hfits => ?_⟩⟩
  rw [exec_hsStart_of_fits hfits, State.startRun, State.strBytes_eq]

/-- Settles O40: in the phases of R157's table each of the three events is the failure entry of R156. -/
theorem failureEventsEndTheRun : Obligations.FailureEventsEndTheRun := by
  refine fun s rest => ⟨fun hin hp => ?_, fun hin hp => ?_, fun hin hp => ?_⟩
  · exact step_enabled hin (by simp [enabled, hp])
  · exact step_enabled hin (by simpa [enabled] using hp)
  · exact step_enabled hin (by simpa [enabled] using hp)

/-! ### Enabledness -/

theorem State.take_completes (s : State) (i : Input) : ∃ t, s.take i = .next t := by
  cases i with
  | write32 off v => exact busWrite_completes off v s
  | read32 _ | connOk | connFail | txAccept | rxByte _ | rxEos | ioErr | tick | reset => exact ⟨_, rfl⟩

/-- The scheduled step answers exactly under the condition `P` that enables it. -/
theorem step_exactly_when_enabled {s : State} {i : Input} {rest : List Input} {P : Prop} (h : s.inputs = i :: rest)
    (hP : enabled i s.phase = true ↔ P) :
    (P → ∃ t, step s = .next t) ∧ (¬ P → step s = .refused (.eventNotEnabled i)) := by
  refine ⟨fun hp => ?_, fun hp => ?_⟩
  · rw [step_enabled h (hP.2 hp)]
    exact State.take_completes _ i
  · rw [step_cons h, if_neg (mt hP.1 hp)]

/-- Settles O49, row by row of R157's table. -/
theorem eventsStepExactlyWhenEnabled : Obligations.EventsStepExactlyWhenEnabled := by
  intro s i rest h
  cases i with
  | connOk | connFail | txAccept | rxByte _ | rxEos | ioErr => exact step_exactly_when_enabled h decide_eq_true_iff
  | tick | read32 _ | write32 _ _ | reset => exact step_exactly_when_enabled h (iff_of_true rfl trivial)

/-! ### One tick -/

/-- The wait that the phase is under: its timeout and the error of its expiry (R151). -/
def State.wait (s : State) : Option (Word × ErrCause) :=
  match s.phase with
  | .connecting => some (s.connectTimeout, .connectTimeout)
  | .recvLen | .recvBody => some (s.readTimeout, .readTimeout)
  | .idle | .sendHs | .sendSr | .done => none

theorem State.wait_of_connecting {s : State} (hp : s.phase = .connecting) :
    s.wait = some (s.connectTimeout, .connectTimeout) := by
  simp only [State.wait, hp]

theorem State.wait_of_receiving {s : State} (hp : s.phase = .recvLen ∨ s.phase = .recvBody) :
    s.wait = some (s.readTimeout, .readTimeout) := by
  rcases hp with hp | hp <;> simp only [State.wait, hp]

theorem State.tick_of_wait {s : State} {T : Word} {e : ErrCause} (hw : s.wait = some (T, e)) :
    s.tick = if T.toNat ≤ (timerNext s.timer).toNat then State.fail { s with timer := timerNext s.timer } e
      else { s with timer := timerNext s.timer } := by
  unfold State.wait at hw
  cases hp : s.phase with
  | idle | sendHs | sendSr | done => simp [hp] at hw
  | connecting | recvLen | recvBody =>
    simp only [hp, Option.some.injEq, Prod.mk.injEq] at hw
    obtain ⟨rfl, rfl⟩ := hw
    simp only [State.tick, hp, ge_iff_le]

theorem step_tick {s : State} {rest : List Input} (h : s.inputs = .tick :: rest) :
    step s = .next (State.tick { s with inputs := rest }) := step_enabled h rfl

section
variable {s : State} {rest : List Input} {T : Word} {e : ErrCause} (h : s.inputs = .tick :: rest)
  (hw : s.wait = some (T, e))
include h hw

/-- A tick short of the timeout counts in TIMER (R151). -/
theorem step_tick_counts (hlt : (timerNext s.timer).toNat < T.toNat) :
    step s = .next { s with inputs := rest, timer := timerNext s.timer } := by
  rw [step_tick h, State.tick_of_wait (s := { s with inputs := rest }) hw, if_neg (by simpa using hlt)]

/-- The tick that reaches the timeout ends the run (R151), TIMER keeping its count (log 8). -/
theorem step_tick_expires (hle : T.toNat ≤ (timerNext s.timer).toNat) :
    step s = .next (State.fail { s with inputs := rest, timer := timerNext s.timer } e) := by
  rw [step_tick h, State.tick_of_wait (s := { s with inputs := rest }) hw, if_pos hle]

end

theorem step_tick_without_wait {s : State} {rest : List Input} (h : s.inputs = .tick :: rest)
    (hp : s.phase = .idle ∨ s.phase = .sendHs ∨ s.phase = .sendSr ∨ s.phase = .done) :
    step s = .next { s with inputs := rest } := by
  rw [step_tick h]
  rcases hp with hp | hp | hp | hp <;> simp only [State.tick, hp]

/-- Settles O47, by the wait that the phase is under, or that it is under none. -/
theorem tickCountsTheWait : Obligations.TickCountsTheWait := by
  rintro s rest T hin rfl
  refine ⟨fun hp => ?_, fun hp => ?_, step_tick_without_wait hin⟩
  · have hw := State.wait_of_connecting hp
    exact ⟨step_tick_counts hin hw, step_tick_expires hin hw⟩
  · have hw := State.wait_of_receiving hp
    exact ⟨step_tick_counts hin hw, step_tick_expires hin hw⟩

/-! ### A wait from its first tick to its expiry -/

/-- Below its bound, TIMER counts without saturating (R30). -/
theorem timerNext_of_lt {t : Word} (h : t.toNat < 0xFFFFFFFF) : timerNext t = BitVec.ofNat 32 (t.toNat + 1) := by
  rw [timerNext, min_eq_left (by omega)]

theorem toNat_timerNext (t : Word) : (timerNext t).toNat = min (t.toNat + 1) 0xFFFFFFFF :=
  toNat_ofNat_of_lt (by omega)

/-- A tick counts up to any timeout that TIMER stands just below, the saturated TIMER included. -/
theorem le_toNat_timerNext {t T : Word} (h : T.toNat ≤ t.toNat + 1) : T.toNat ≤ (timerNext t).toNat := by
  have hT := T.isLt
  rw [toNat_timerNext]
  omega

/-- The state after `k` ticks of a wait that goes on. -/
def State.waited (s : State) (k : Nat) (ins : List Input) : State :=
  { s with timer := BitVec.ofNat 32 (s.timer.toNat + k), inputs := ins }

theorem toNat_waited_timer {s : State} {T : Word} {k : Nat} (hk : k < max (T.toNat - s.timer.toNat) 1)
    (ins : List Input) : (s.waited k ins).timer.toNat = s.timer.toNat + k := by
  have hT := T.isLt
  have hx := s.timer.isLt
  exact toNat_ofNat_of_lt (by omega)

section
variable {s : State} {T : Word} {e : ErrCause} (hw : s.wait = some (T, e))
include hw

/-- Any number of ticks short of the expiry leaves the wait standing (R152). -/
theorem run_waited {k : Nat} {ins : List Input} (hk : k < max (T.toNat - s.timer.toNat) 1)
    (hin : s.inputs = List.replicate k .tick ++ ins) :
    Host.Core.run Sys2Proof.core k s = .next (s.waited k ins) := by
  induction k generalizing ins with
  | zero =>
    obtain rfl : s.inputs = ins := hin
    simp [Host.Core.run, State.waited]
  | succ k ih =>
    have hT := T.isLt
    have hcount := toNat_waited_timer (s := s) (T := T) (k := k) (by omega) ([.tick] ++ ins)
    have hnext : timerNext (s.waited k ([.tick] ++ ins)).timer = (s.waited (k + 1) ins).timer := by
      rw [timerNext_of_lt (by omega), hcount]
      rfl
    have hlt : (s.waited (k + 1) ins).timer.toNat < T.toNat := by
      rw [toNat_waited_timer (T := T) hk]
      omega
    rw [List.replicate_succ', List.append_assoc] at hin
    refine run_append_step (ih (by omega) hin) ?_
    refine (step_tick_counts (s := s.waited k ([.tick] ++ ins)) (rest := ins) rfl hw (hnext ▸ hlt)).trans ?_
    rw [hnext]
    rfl

/-- The expiring tick ends the run (R152). -/
theorem run_wait_expires {n : Nat} {rest : List Input} (hn : n = max (T.toNat - s.timer.toNat) 1)
    (hin : s.inputs = List.replicate n .tick ++ rest) :
    ∃ x, Host.Core.run Sys2Proof.core n s = .next (State.fail { s with inputs := rest, timer := x } e) := by
  obtain ⟨k, rfl⟩ : ∃ k, n = k + 1 := Nat.exists_eq_succ_of_ne_zero (by omega)
  rw [List.replicate_succ', List.append_assoc] at hin
  have hcount := toNat_waited_timer (s := s) (T := T) (k := k) (by omega) ([.tick] ++ rest)
  have hexpires := step_tick_expires (s := s.waited k ([.tick] ++ rest)) rfl hw (le_toNat_timerNext (by omega))
  exact ⟨_, run_append_step (run_waited hw (by omega) hin) hexpires⟩

/-- Both halves of R152's arithmetic, for whichever wait the phase is under. -/
theorem wait_ends_at_its_tick {n : Nat} {rest : List Input} (hn : n = max (T.toNat - s.timer.toNat) 1)
    (hin : s.inputs = List.replicate n .tick ++ rest) :
    (∃ t, Host.Core.run Sys2Proof.core n s = .next t ∧ t.phase = .done ∧ t.fsm = .failed ∧ t.errCode = e.code ∧
      t.errSub = e.sub ∧ t.trace = s.trace ++ [.close] ∧ t.inputs = rest) ∧
    ∀ k, k < n → ∃ t, Host.Core.run Sys2Proof.core k s = .next t ∧ t.phase = s.phase ∧
      t.timer.toNat = s.timer.toNat + k := by
  constructor
  · obtain ⟨x, hrun⟩ := run_wait_expires hw hn hin
    exact ⟨_, hrun, rfl, rfl, rfl, rfl, rfl, rfl⟩
  · intro k hk
    subst hn
    obtain ⟨m, hm⟩ := Nat.exists_eq_add_of_lt hk
    have hsplit : s.inputs = List.replicate k .tick ++ (List.replicate (m + 1) .tick ++ rest) := by
      rw [hin, hm, Nat.add_assoc, List.replicate_add, List.append_assoc]
    exact ⟨_, run_waited hw hk hsplit, rfl, toNat_waited_timer hk _⟩

end

/-- Settles O48: ticks short of the timeout count, and the one that reaches it fails the run with the wait's own error. -/
theorem waitsEndWithinBoundedTicks : Obligations.WaitsEndWithinBoundedTicks := by
  refine fun s rest n => ⟨fun hp hn hin => ?_, fun hp hn hin => ?_⟩
  · rw [← hp]
    exact wait_ends_at_its_tick (State.wait_of_connecting hp) hn hin
  · exact wait_ends_at_its_tick (State.wait_of_receiving hp) hn hin

end Sys2Proof.Machine

/-! The two sends of a run (spec/44_handshake_fsm.md R143, R145 to R147): the Handshake frame that ConnOk builds, one TxAccept, and
as many as the frame has bytes. -/

namespace Sys2Proof.Machine

open Sys2Proof

/-! ### The Handshake frame -/

/-- BuildHandshake is a sequence of builder operations (spec/42_frame_builder.md R110): what FB_RESET establishes and an append and
FB_FINISH keep, it leaves. -/
theorem State.buildHandshake_induction {P : State → Prop} {s t : State} (hreset : P s.builderReset)
    (happend : ∀ (u v : State) (bs : List Byte), P u → u.append bs = .ok v → P v) (hfinish : ∀ u, P u → P u.finish)
    (ht : s.buildHandshake = .ok t) : P t := by
  unfold State.buildHandshake at ht
  obtain ⟨a, ha, ht⟩ := bind_ok ht
  obtain ⟨b, hb, ht⟩ := bind_ok ht
  obtain ⟨c, hc, ht⟩ := bind_ok ht
  obtain ⟨d, hd, ht⟩ := bind_ok ht
  obtain ⟨e, he, ht⟩ := bind_ok ht
  obtain ⟨str, hstr⟩ := State.appendString_ok hc
  cases ht
  have hPa := happend _ a _ hreset ha
  have hPb := happend a b _ hPa hb
  have hPc := happend b c str hPb hstr
  have hPd := happend c d _ hPc hd
  exact hfinish e (happend d e _ hPd he)

/-- BuildHandshake changes BODY in the body it builds, and nowhere else. -/
theorem State.buildHandshake_sameBytesOutside {s t : State} (ht : s.buildHandshake = .ok t) :
    SameBytesOutside .body 0 t.txBodyLen.toNat s t := by
  refine State.buildHandshake_induction (P := fun u => SameBytesOutside .body 0 u.txBodyLen.toNat s u)
    (fun _ _ => rfl) (fun u v bs hu hv i hi => ?_) (fun _ hu => hu) ht
  obtain ⟨hfits, rfl⟩ := State.append_ok hv
  rw [State.toNat_appended_txBodyLen hfits] at hi
  rw [State.byteAt_appended_outside u bs i (by omega), hu i (by omega)]

theorem setWidth_txBodyLen_eq {n : BitVec 10} {k : Nat} (h : n.toNat = k) : n.setWidth 32 = BitVec.ofNat 32 k := by
  rw [← h, BitVec.ofNat_toNat]

/-- The Handshake body in the order of R77's fields. -/
theorem State.handshakeBody_eq (s : State) :
    s.handshakeBody = [0x00] ++ venc s.protoVer ++ venc (s.strLen.setWidth 32) ++
      (List.range s.strLen.toNat).map (fun i => s.byteAt .str i) ++
      [s.port.extractLsb' 8 8, s.port.extractLsb' 0 8] ++ [0x01] := by
  rw [← s.strBytes_eq]
  simp [State.handshakeBody, u16be]

theorem step_connOk {s : State} {rest : List Input} (h : s.inputs = .connOk :: rest) (hp : s.phase = .connecting) :
    step s = .next (State.connOk { s with inputs := rest }) := step_enabled h (by simp [enabled, hp])

/-- What ConnOk leaves where STR_LEN is legal (R143). -/
theorem State.connOk_spec {s : State} (h : s.strLen.toNat ≤ 256) :
    s.connOk.bodyBytes = s.handshakeBody ∧ s.connOk.txBodyLen.toNat = s.handshakeBody.length ∧
    s.connOk.frameBytes = venc (BitVec.ofNat 32 s.handshakeBody.length) ++ s.handshakeBody ∧
    s.connOk.pfx.take s.connOk.plen.toNat = venc (BitVec.ofNat 32 s.handshakeBody.length) ∧
    s.connOk.plen.toNat = (venc (BitVec.ofNat 32 s.handshakeBody.length)).length ∧
    SameBytesOutside .body 0 s.handshakeBody.length s s.connOk := by
  obtain ⟨hok, hbody, hlen⟩ := s.buildHandshake_of_strLen h
  have hout := State.buildHandshake_sameBytesOutside hok
  obtain ⟨hlong, -⟩ | ⟨-, hbuilt, -⟩ := s.connOk_cases
  · omega
  · generalize s.handshakeAppended = u at *
    have hw := setWidth_txBodyLen_eq hlen
    rw [hbuilt]
    refine ⟨hbody, hlen, ?_, ?_, ?_, ?_⟩
    · have := u.frameBytes_finish
      rwa [hw, hbody] at this
    · have := u.finish_pfx_take
      rwa [hw] at this
    · have := u.toNat_finish_plen
      rwa [hw] at this
    · rw [← hlen]
      exact hout

/-- Settles O39: the builder's own account of the frame, and the frame of ConnOk. -/
theorem connOkBuildsTheHandshakeFrame : Obligations.ConnOkBuildsTheHandshakeFrame := by
  intro s rest hin hp hstr
  refine ⟨_, s.handshakeBody, step_connOk hin hp, s.handshakeBody_eq, s.length_handshakeBody_le hstr, ?_⟩
  obtain ⟨hbody, hlen, hframe, hpfx, hplen, hout⟩ := State.connOk_spec (s := { s with inputs := rest }) hstr
  obtain ⟨hlong, -⟩ | ⟨-, -, heq⟩ := State.connOk_cases { s with inputs := rest }
  · exact absurd hstr hlong.not_ge
  · generalize State.connOk { s with inputs := rest } = t at *
    have hdraws : t.draws = s.draws := by rw [heq]
    have hstrBytes : t.buffer .str = s.buffer .str := by rw [heq]; rfl
    have hrxBytes : t.buffer .rx = s.buffer .rx := by rw [heq]; rfl
    exact ⟨hbody, hlen, hframe, hpfx, hplen, hout, State.byteAt_congr hstrBytes hdraws,
      State.byteAt_congr hrxBytes hdraws, heq⟩

/-! ### One TxAccept -/

theorem step_txAccept {s : State} {rest : List Input} (h : s.inputs = .txAccept :: rest)
    (hp : s.phase = .sendHs ∨ s.phase = .sendSr) : step s = .next (State.txAccept { s with inputs := rest }) :=
  step_enabled h (by simpa [enabled] using hp)

/-- TX_SENT counts without wrapping up to TX_FRAME_LEN. -/
theorem toNat_txSent_next {s : State} (h : s.txSent.toNat + 1 ≤ s.txFrameLen.toNat) :
    (BitVec.ofNat 11 (s.txSent.toNat + 1)).toNat = s.txSent.toNat + 1 :=
  toNat_ofNat_of_lt (h.trans_lt s.txFrameLen.isLt)

/-- The count after a byte reaches TX_FRAME_LEN exactly at the frame's last byte. -/
theorem txSent_next_eq_iff {s : State} (h : s.txSent.toNat + 1 ≤ s.txFrameLen.toNat) :
    BitVec.ofNat 11 (s.txSent.toNat + 1) = s.txFrameLen ↔ s.txSent.toNat + 1 = s.txFrameLen.toNat := by
  rw [← BitVec.toNat_inj, toNat_txSent_next h]

/-- A byte with more to come (R145). -/
theorem State.txAccept_of_more {s : State} (h : s.txSent.toNat + 1 < s.txFrameLen.toNat) :
    s.txAccept = { s with trace := s.trace ++ [.txByte (s.frameByte s.txSent.toNat)],
                          txSent := BitVec.ofNat 11 (s.txSent.toNat + 1) } := by
  have hne := mt (txSent_next_eq_iff h.le).1 h.ne
  obtain ⟨-, ht⟩ | ⟨hlast, -⟩ | ⟨hlast, -⟩ := s.txAccept_cases
  · exact ht
  · exact absurd hlast hne
  · exact absurd hlast hne

/-- The Status Request's last byte (R147). -/
theorem State.txAccept_of_request_last {s : State} (h : s.txSent.toNat + 1 = s.txFrameLen.toNat) (hp : s.phase = .sendSr) :
    s.txAccept = { s with trace := s.trace ++ [.txByte (s.frameByte s.txSent.toNat)], txSent := s.txFrameLen,
                          fsm := .statusRequested, phase := .recvLen, timer := 0, lacc := 0, lcnt := 0,
                          rxFrameLen := 0, rxRcvd := 0, rxCursor := 0 } := by
  obtain ⟨hmore, -⟩ | ⟨-, hs, -⟩ | ⟨-, -, ht⟩ := s.txAccept_cases
  · exact absurd ((txSent_next_eq_iff h.le).2 h) hmore
  · simp [hp] at hs
  · exact ht

/-- A run of bytes written to BODY leaves the other bytes of BODY as they were. -/
theorem sameBytesOutside_of_body_written {s t : State} {a : Nat} {bs : List Byte}
    (hbody : t.body = Mem.writeRun 1022 s.body a bs) (hdraws : t.draws = s.draws) :
    SameBytesOutside .body a bs.length s t := fun i hi => by
  simp only [State.byteAt, State.buffer, hbody, hdraws, Mem.lookup_writeRun_outside 1022 s.body a i bs hi]

/-- `t` holds the Status Request's frame `01 00`, built over the state `s` (R146, spec/42_frame_builder.md R111). -/
structure HoldsStatusRequest (s t : State) : Prop where
  frame : t.frameBytes = [0x01, 0x00]
  body : t.bodyBytes = [0x00]
  pfx : t.pfx.take 1 = [0x01]
  bodyFrame : SameBytesOutside .body 0 1 s t
  strFrame : SameBytes .str s t
  rxFrame : SameBytes .rx s t

/-- The handshake's last byte (R146). -/
theorem State.txAccept_of_handshake_last {s : State} (h : s.txSent.toNat + 1 = s.txFrameLen.toNat)
    (hp : s.phase = .sendHs) :
    HoldsStatusRequest s s.txAccept ∧
    s.txAccept = { s with trace := s.trace ++ [.txByte (s.frameByte s.txSent.toNat)], fsm := .handshakeSent,
                          phase := .sendSr, txSent := 0, body := s.txAccept.body, txBodyLen := 1,
                          pfx := s.txAccept.pfx, plen := 1, txFrameLen := 2, frameValid := true } := by
  obtain ⟨hmore, -⟩ | ⟨-, -, hpfx, hsize, hwritten, ht⟩ | ⟨-, hs, -⟩ := s.txAccept_cases
  · exact absurd ((txSent_next_eq_iff h.le).2 h) hmore
  · refine ⟨?_, ht⟩
    generalize s.txAccept = t at *
    have hbodyLen : t.txBodyLen = 1 := by rw [ht]
    have hplen : t.plen = 1 := by rw [ht]
    have hframeLen : t.txFrameLen = 2 := by rw [ht]
    have hdraws : t.draws = s.draws := by rw [ht]
    have hstr : t.buffer .str = s.buffer .str := by rw [ht]; rfl
    have hrx : t.buffer .rx = s.buffer .rx := by rw [ht]; rfl
    have hbyte : HoldsBytes (t.byteAt .body) 0 [0x00] := fun j hj => by
      simp only [State.byteAt, State.buffer, hwritten, Mem.lookup_writeRun_inside 1022 s.body 0 j [0x00] hj (by simp)]
      rfl
    have hbody : t.bodyBytes = [0x00] := by
      rw [State.bodyBytes, hbodyLen]
      exact State.bytesFrom_of_holdsBytes hbyte
    refine ⟨?_, hbody, hpfx, sameBytesOutside_of_body_written hwritten hdraws,
      State.byteAt_congr hstr hdraws, State.byteAt_congr hrx hdraws⟩
    rw [State.frameBytes_eq (by simp [hplen]; omega) (by rw [hplen, hbodyLen, hframeLen]; rfl), hplen, hbody]
    exact congrArg (· ++ [0x00]) hpfx
  · exact absurd hp hs

/-- Settles O41, by how many bytes of the frame are left. -/
theorem txAcceptSendsTheNextByte : Obligations.TxAcceptSendsTheNextByte := by
  intro s rest hin hp
  rw [step_txAccept hin hp]
  refine ⟨fun hmore => ?_, fun hlast hhs => ?_, fun hlast hsr => ?_⟩
  · exact ⟨_, congrArg _ (State.txAccept_of_more hmore), toNat_txSent_next hmore.le, rfl⟩
  · obtain ⟨hreq, ht⟩ := State.txAccept_of_handshake_last (s := { s with inputs := rest }) hlast hhs
    exact ⟨_, rfl, hreq.frame, hreq.body, hreq.pfx, hreq.bodyFrame, hreq.strFrame, hreq.rxFrame, ht⟩
  · exact ⟨_, congrArg _ (State.txAccept_of_request_last hlast hsr), hlast.symm, rfl⟩

/-! ### The frame from its first byte to its last -/

/-- The state in which the first `k` bytes of the frame of `s` are sent. -/
def State.sent (s : State) (k : Nat) (ins : List Input) : State :=
  { s with trace := s.trace ++ (List.range k).map (fun i => .txByte (s.frameByte i)), txSent := BitVec.ofNat 11 k,
           inputs := ins }

theorem State.toNat_sent_txSent {s : State} {k : Nat} (hk : k < s.txFrameLen.toNat) (ins : List Input) :
    (s.sent k ins).txSent.toNat = k :=
  toNat_ofNat_of_lt (hk.trans s.txFrameLen.isLt)

theorem State.step_sent {s : State} {k : Nat} {ins : List Input} (hp : s.phase = .sendHs) :
    step (s.sent k ([.txAccept] ++ ins)) = .next (s.sent k ins).txAccept :=
  step_txAccept rfl (.inl hp)

/-- The next byte offered goes behind those sent. -/
theorem State.trace_sent_succ {s : State} {k : Nat} (hk : k < s.txFrameLen.toNat) (ins ins' : List Input) :
    (s.sent k ins).trace ++ [.txByte ((s.sent k ins).frameByte (s.sent k ins).txSent.toNat)] =
      (s.sent (k + 1) ins').trace := by
  rw [State.toNat_sent_txSent hk]
  simp only [State.sent, List.range_succ, List.map_append, List.append_assoc]
  rfl

/-- TxAccepts short of the frame's last byte send the frame's bytes in order (R145). -/
theorem run_sent {s : State} {k : Nat} {ins : List Input} (hp : s.phase = .sendHs) (hsent : s.txSent = 0)
    (hk : k < s.txFrameLen.toNat) (hin : s.inputs = List.replicate k .txAccept ++ ins) :
    Host.Core.run Sys2Proof.core k s = .next (s.sent k ins) := by
  induction k generalizing ins with
  | zero =>
    obtain rfl : s.inputs = ins := hin
    show Host.Outcome.next s = .next { s with trace := s.trace ++ [], txSent := 0 }
    rw [List.append_nil, ← hsent]
  | succ k ih =>
    have hcount := State.toNat_sent_txSent (s := s) (k := k) (by omega) ins
    have hmore : (s.sent k ins).txSent.toNat + 1 < (s.sent k ins).txFrameLen.toNat := hcount.symm ▸ hk
    rw [List.replicate_succ', List.append_assoc] at hin
    refine run_append_step (ih (by omega) hin) ?_
    rw [State.step_sent hp, State.txAccept_of_more hmore, State.trace_sent_succ (by omega) ins ins, hcount]
    rfl

/-- Settles O42: all bytes but the last go out one by one, and the last one builds the Status Request. -/
theorem handshakeFrameGoesOutInOrder : Obligations.HandshakeFrameGoesOutInOrder := by
  intro s rest hp hsent hpos hin
  obtain ⟨k, hk⟩ : ∃ k, s.txFrameLen.toNat = k + 1 := Nat.exists_eq_succ_of_ne_zero hpos.ne'
  rw [hk, List.replicate_succ', List.append_assoc] at hin
  have hlast : (s.sent k rest).txSent.toNat + 1 = (s.sent k rest).txFrameLen.toNat := by
    rw [State.toNat_sent_txSent (by omega)]
    exact hk.symm
  have hrun := run_append_step (run_sent hp hsent (by omega) hin) (State.step_sent hp)
  obtain ⟨hreq, ht⟩ := State.txAccept_of_handshake_last hlast hp
  refine ⟨_, hk ▸ hrun, ?_⟩
  have hframe := hreq.frame
  generalize (s.sent k rest).txAccept = t at *
  have htrace : t.trace = s.trace ++ s.frameBytes.map (fun b => .txByte b) := by
    rw [ht, State.frameBytes, List.map_map, hk]
    exact State.trace_sent_succ (by omega) rest rest
  exact ⟨htrace, by rw [ht], by rw [ht], hframe, by rw [ht], by rw [ht]; rfl⟩

end Sys2Proof.Machine

/-! What a step does to FSM, PHASE and the output trace (spec/44_handshake_fsm.md R141, R153, R155): nothing, or a row of the
table; and a Close wherever a run ends. -/

namespace Sys2Proof.Machine

open Sys2Proof

/-! ### The host's accesses -/

/-- `t` is where `s` was in its run, with nothing emitted. -/
structure KeepsRun (s t : State) : Prop where
  fsm : t.fsm = s.fsm
  phase : t.phase = s.phase
  trace : t.trace = s.trace

theorem keepsRun_exec_short {i : Instr} {s t : State} (hi : i ≠ .hsStart) (ht : exec i s = .next t) : KeepsRun s t := by
  rw [exec_short_frame hi ht]
  exact ⟨rfl, rfl, rfl⟩

theorem keepsRun_writeReg (s : State) (r : Reg) (v : Word) : KeepsRun s (s.writeReg r v) := by
  cases r <;> exact ⟨rfl, rfl, rfl⟩

theorem keepsRun_writeWord (s : State) (w : Nat) (v : Word) : KeepsRun s (s.writeWord w v) := by
  obtain ⟨r, hw⟩ | ⟨a, hw⟩ | ⟨a, hw⟩ := writeWord_cases s w v
  · rw [hw]; exact keepsRun_writeReg s r v
  · rw [hw]; exact ⟨rfl, rfl, rfl⟩
  · rw [hw]; exact ⟨rfl, rfl, rfl⟩

/-- Of all host writes only an accepted HS_START moves a run (R142, R160). -/
theorem busWrite_run {off : Half} {v : Word} {s t : State} (ht : busWrite off v s = .next t) :
    KeepsRun s t ∨ (IsHsStart (.write32 off v) ∧ s.busy = false ∧ exec .hsStart s.accept = .next t) := by
  obtain ⟨-, -, rfl⟩ | ⟨hoff, hb, hx⟩ | ⟨-, -, rfl⟩ | ⟨-, -, rfl⟩ := busWrite_next ht
  · exact .inl ⟨rfl, rfl, rfl⟩
  · obtain ⟨i, hd, hi⟩ | rfl | rfl := execute_next hx
    · by_cases hs : i = .hsStart
      · subst hs
        obtain rfl : v = encode .hsStart := (decodeAnswersExactlyTheEncoding v .hsStart).1 hd
        exact .inr ⟨⟨off, rfl, wordOffset_eq_zero_iff.1 hoff⟩, hb, hi⟩
      · obtain ⟨hfsm, hphase, htrace⟩ := keepsRun_exec_short hs hi
        exact .inl ⟨hfsm, hphase, htrace⟩
    · exact .inl ⟨rfl, rfl, rfl⟩
    · exact .inl ⟨rfl, rfl, rfl⟩
  · exact .inl ⟨rfl, rfl, rfl⟩
  · exact .inl (keepsRun_writeWord s _ v)

/-! ### The trace -/

/-- From `s` to `t` one Close and nothing else is emitted, or the trace grows and no run ends: PHASE stays, a run is in progress,
or a block without one is reset to IDLE. -/
def ClosesOrGoesOn (s t : State) : Prop :=
  t.trace = s.trace ++ [.close] ∨
  (s.trace <+: t.trace ∧ (t.phase = s.phase ∨ t.busy = true ∨ s.busy = false ∧ t.phase = .idle))

theorem KeepsRun.closesOrGoesOn {s t : State} (h : KeepsRun s t) : ClosesOrGoesOn s t :=
  .inr ⟨h.trace ▸ List.prefix_rfl, .inl h.phase⟩

theorem ClosesOrGoesOn.trace_prefix {s t : State} (h : ClosesOrGoesOn s t) : s.trace <+: t.trace := by
  obtain hclose | ⟨hgrows, -⟩ := h
  · rw [hclose]; exact List.prefix_append _ _
  · exact hgrows

theorem closesOrGoesOn_hsStart {s t : State} (ht : exec .hsStart s.accept = .next t) : ClosesOrGoesOn s t := by
  obtain ⟨-, rfl⟩ | ⟨-, rfl⟩ := exec_hsStart ht
  · exact .inl rfl
  · exact .inr ⟨List.prefix_append _ _, .inr (.inl rfl)⟩

theorem closesOrGoesOn_connOk (s : State) : ClosesOrGoesOn s s.connOk := by
  obtain ⟨-, e, ht⟩ | ⟨-, -, ht⟩ := s.connOk_cases
  · rw [ht]; exact .inl rfl
  · rw [ht]; exact .inr ⟨List.prefix_rfl, .inr (.inl rfl)⟩

theorem closesOrGoesOn_txAccept (s : State) : ClosesOrGoesOn s s.txAccept := by
  obtain ⟨-, ht⟩ | ⟨-, -, -, -, -, ht⟩ | ⟨-, -, ht⟩ := s.txAccept_cases
  · rw [ht]; exact .inr ⟨List.prefix_append _ _, .inl rfl⟩
  · rw [ht]; exact .inr ⟨List.prefix_append _ _, .inr (.inl rfl)⟩
  · rw [ht]; exact .inr ⟨List.prefix_append _ _, .inr (.inl rfl)⟩

/-- The parse ends the run either way (R153, R156). -/
theorem State.complete_trace (s : State) : s.complete.trace = s.trace ++ [.close] := by
  obtain ⟨r, c, e, -, ht⟩ | ⟨r, c, o, l, -, -, ht⟩ := s.complete_cases
  · rw [ht]; rfl
  · rw [ht]; rfl

theorem closesOrGoesOn_rxLengthByte (s : State) (b : Byte) : ClosesOrGoesOn s (s.rxLengthByte b) := by
  obtain ⟨L, c, -, -, ⟨-, -, ht⟩ | ⟨e, -, ht⟩ | ⟨-, -, ht⟩ | ⟨-, -, -, ht⟩⟩ := s.rxLengthByte_cases b
  · rw [ht]; exact .inr ⟨List.prefix_rfl, .inl rfl⟩
  · rw [ht]; exact .inl rfl
  · rw [ht]; exact .inl (State.complete_trace _)
  · rw [ht]; exact .inr ⟨List.prefix_rfl, .inr (.inl rfl)⟩

theorem closesOrGoesOn_rxBodyByte (s : State) (b : Byte) : ClosesOrGoesOn s (s.rxBodyByte b) := by
  obtain ⟨-, ht⟩ | ⟨-, ht⟩ := s.rxBodyByte_cases b
  · rw [ht]; exact .inr ⟨List.prefix_rfl, .inl rfl⟩
  · rw [ht]; exact .inl (State.complete_trace _)

theorem closesOrGoesOn_rxByte (s : State) (b : Byte) : ClosesOrGoesOn s (s.rxByte b) := by
  unfold State.rxByte
  split
  · exact closesOrGoesOn_rxLengthByte s b
  · exact closesOrGoesOn_rxBodyByte s b

theorem closesOrGoesOn_tick (s : State) : ClosesOrGoesOn s s.tick := by
  obtain ⟨-, -, -, ht⟩ | ⟨-, -, ht⟩ | ⟨-, -, ht⟩ | ⟨-, -, ht⟩ | ⟨-, -, ht⟩ := s.tick_cases
  · rw [ht]; exact .inr ⟨List.prefix_rfl, .inl rfl⟩
  · rw [ht]; exact .inr ⟨List.prefix_rfl, .inl rfl⟩
  · rw [ht]; exact .inl rfl
  · rw [ht]; exact .inr ⟨List.prefix_rfl, .inl rfl⟩
  · rw [ht]; exact .inl rfl

/-- A reset emits Close exactly during a run (spec/70_reset_and_hazards.md R190). -/
theorem closesOrGoesOn_resetStep (s : State) : ClosesOrGoesOn s s.resetStep := by
  cases hb : s.busy with
  | true => exact .inl (by simp [State.resetStep, hb])
  | false => exact .inr ⟨by simp [State.resetStep, hb], .inr (.inr ⟨hb, rfl⟩)⟩

theorem closesOrGoesOn_take {i : Input} {s t : State} (ht : s.take i = .next t) : ClosesOrGoesOn s t := by
  cases i with
  | write32 off v =>
    obtain hkeeps | ⟨-, -, hx⟩ := busWrite_run ht
    · exact hkeeps.closesOrGoesOn
    · exact closesOrGoesOn_hsStart hx
  | read32 _ => cases ht; exact KeepsRun.closesOrGoesOn ⟨rfl, rfl, rfl⟩
  | connOk => cases ht; exact closesOrGoesOn_connOk s
  | txAccept => cases ht; exact closesOrGoesOn_txAccept s
  | rxByte b => cases ht; exact closesOrGoesOn_rxByte s b
  | tick => cases ht; exact closesOrGoesOn_tick s
  | reset => cases ht; exact closesOrGoesOn_resetStep s
  | connFail | rxEos | ioErr => cases ht; exact .inl rfl

theorem closesOrGoesOn_step {s t : State} (h : step s = .next t) : ClosesOrGoesOn s t := by
  obtain ⟨-, rfl⟩ | ⟨i, rest, -, -, ht⟩ := step_next h
  · exact KeepsRun.closesOrGoesOn ⟨rfl, rfl, rfl⟩
  · exact closesOrGoesOn_take (s := { s with inputs := rest }) ht

/-- Settles O52: whatever a step emits goes behind what is there. -/
theorem outputTraceOnlyGrows : Obligations.OutputTraceOnlyGrows :=
  fun _ _ h => (closesOrGoesOn_step h).trace_prefix

theorem decode_hsStart : decode 0x00000030 = .ok .hsStart := by decide

/-- Settles O50: a step that goes on ends no run and does not reach DONE, and an HS_START that goes on is CONNECTING. -/
theorem closeOnEveryExit : Obligations.CloseOnEveryExit := by
  refine ⟨fun s t h hs ht => ?_, fun s t h hs ht => ?_, fun s t off rest hin hoff hb h ht => ?_⟩
  · obtain hclose | ⟨-, hphase | hbusy | ⟨hidle, -⟩⟩ := closesOrGoesOn_step h
    · exact hclose
    · rw [State.busy, hphase] at ht
      exact absurd (hs.symm.trans ht) (by decide)
    · simp [ht] at hbusy
    · simp [hs] at hidle
  · obtain hclose | ⟨-, hphase | hbusy | ⟨-, hidle⟩⟩ := closesOrGoesOn_step h
    · exact hclose
    · exact absurd (hphase.symm.trans ht) hs
    · simp [State.busy, ht, Phase.busy] at hbusy
    · simp [ht] at hidle
  · rw [step_write_command hin hoff hb, execute_of_decode decode_hsStart] at h
    obtain ⟨-, rfl⟩ | ⟨-, rfl⟩ := exec_hsStart h
    · rfl
    · simp at ht

end Sys2Proof.Machine

/-! The transition table of spec/44_handshake_fsm.md R141, event by event, from the states that R41's invariants leave. -/

namespace Sys2Proof.Machine

open Sys2Proof

/-- From `s` to `t` the step `i` keeps FSM and PHASE, or is a row of the table or a reset. -/
def FollowsTable (i : Input) (s t : State) : Prop :=
  (t.fsm = s.fsm ∧ t.phase = s.phase) ∨ TransitionRow i s t ∨ (i = .reset ∧ t.fsm = .idle ∧ t.phase = .idle)

theorem KeepsRun.followsTable {s t : State} (h : KeepsRun s t) (i : Input) : FollowsTable i s t := .inl ⟨h.fsm, h.phase⟩

/-- FSM as its phase fixes it (spec/10_state.md R41). -/
theorem Inv.fsm_fits {s : State} {p : Phase} (h : Inv s) (hp : s.phase = p) : fsmFits s.fsm p = true := hp ▸ h.fsm_phase

theorem Inv.fsm_receiving {s : State} (h : Inv s) (hp : s.phase = .recvLen ∨ s.phase = .recvBody) :
    s.fsm = .statusRequested := by
  rcases hp with hp | hp
  · exact of_decide_eq_true (h.fsm_fits hp)
  · exact of_decide_eq_true (h.fsm_fits hp)

theorem State.phase_of_not_busy {s : State} (h : s.busy = false) : s.phase = .idle ∨ s.phase = .done := by
  have hnot := mt s.phase.busy_iff.2 (Bool.eq_false_iff.1 h)
  tauto

/-! ### HS_START and the opening of the connection -/

theorem transitionRow_hsStart {i : Input} {s t : State} (hi : IsHsStart i) (hb : s.busy = false)
    (ht : exec .hsStart s.accept = .next t) : TransitionRow i s t := by
  have hp := State.phase_of_not_busy hb
  obtain ⟨hlong, rfl⟩ | ⟨hfits, rfl⟩ := exec_hsStart ht
  · exact .inl ⟨hi, hp, hlong, rfl, rfl⟩
  · exact .inr (.inl ⟨hi, hp, hfits, rfl, rfl⟩)

theorem Inv.transitionRow_connOk {s : State} (h : Inv s) (hp : s.phase = .connecting) :
    TransitionRow .connOk s s.connOk := by
  have hfsm : s.fsm = .idle := of_decide_eq_true (h.fsm_fits hp)
  obtain ⟨hlong, -⟩ | ⟨-, -, ht⟩ := s.connOk_cases
  · exact absurd (h.address_fits hp) hlong.not_ge
  · rw [ht]
    exact .inr (.inr (.inl ⟨rfl, hfsm, hp, rfl, rfl⟩))

theorem Inv.transitionRow_connFail {s : State} (h : Inv s) (hp : s.phase = .connecting) (e : ErrCause) :
    TransitionRow .connFail s (s.fail e) :=
  .inr (.inr (.inr (.inl ⟨rfl, of_decide_eq_true (h.fsm_fits hp), hp, rfl, rfl⟩)))

/-! ### The sends -/

theorem transitionRow_handshakeSent {s t : State} (hfsm : s.fsm = .connected) (hp : s.phase = .sendHs)
    (hlast : s.txSent.toNat + 1 = s.txFrameLen.toNat) (ht : t.fsm = .handshakeSent ∧ t.phase = .sendSr) :
    TransitionRow .txAccept s t :=
  .inr (.inr (.inr (.inr (.inr (.inl ⟨rfl, hfsm, hp, hlast, ht⟩)))))

theorem transitionRow_requestSent {s t : State} (hfsm : s.fsm = .handshakeSent) (hp : s.phase = .sendSr)
    (hlast : s.txSent.toNat + 1 = s.txFrameLen.toNat) (ht : t.fsm = .statusRequested ∧ t.phase = .recvLen) :
    TransitionRow .txAccept s t :=
  .inr (.inr (.inr (.inr (.inr (.inr (.inl ⟨rfl, hfsm, hp, hlast, ht⟩))))))

/-- Only the last byte of a frame ends its send phase (R145 to R147). -/
theorem Inv.followsTable_txAccept {s : State} (h : Inv s) (hp : s.phase = .sendHs ∨ s.phase = .sendSr) :
    FollowsTable .txAccept s s.txAccept := by
  obtain ⟨-, hsent⟩ := h.sending hp
  obtain ⟨-, ht⟩ | ⟨hlast, hhs, -, -, -, ht⟩ | ⟨hlast, hne, ht⟩ := s.txAccept_cases
  · rw [ht]
    exact .inl ⟨rfl, rfl⟩
  · have hfsm : s.fsm = .connected := of_decide_eq_true (h.fsm_fits hhs)
    rw [ht]
    exact .inr (.inl (transitionRow_handshakeSent hfsm hhs ((txSent_next_eq_iff hsent).1 hlast) ⟨rfl, rfl⟩))
  · have hsr : s.phase = .sendSr := hp.resolve_left hne
    have hfsm : s.fsm = .handshakeSent := of_decide_eq_true (h.fsm_fits hsr)
    rw [ht]
    exact .inr (.inl (transitionRow_requestSent hfsm hsr ((txSent_next_eq_iff hsent).1 hlast) ⟨rfl, rfl⟩))

/-! ### The receive -/

theorem transitionRow_bodyOpens {s t : State} {b : Byte} (hfsm : s.fsm = .statusRequested) (hp : s.phase = .recvLen)
    (hlegal : b.getLsbD 7 = false ∧ 0 < (s.prefixValue b).toNat ∧ (s.prefixValue b).toNat ≤ 32768)
    (ht : t.fsm = .statusRequested ∧ t.phase = .recvBody) : TransitionRow (.rxByte b) s t :=
  .inr (.inr (.inr (.inr (.inr (.inr (.inr (.inl ⟨b, rfl, hfsm, hp, hlegal, ht⟩)))))))

/-- The row of a byte that fails the run, by a bad length or by a body that does not parse. -/
theorem transitionRow_rxByteFails {s t : State} {b : Byte} (hfsm : s.fsm = .statusRequested)
    (hp : s.phase = .recvLen ∨ s.phase = .recvBody)
    (hbad : (s.phase = .recvLen ∧ b.getLsbD 7 = true ∧ s.lcnt.toNat = 4) ∨
      (s.phase = .recvLen ∧ b.getLsbD 7 = false ∧ 32768 < (s.prefixValue b).toNat) ∨
      (FrameCompletes s b ∧ ¬ CompletedBodyParses s b))
    (ht : t.fsm = .failed ∧ t.phase = .done) : TransitionRow (.rxByte b) s t :=
  .inr (.inr (.inr (.inr (.inr (.inr (.inr (.inr (.inr (.inl ⟨b, rfl, hfsm, hp, hbad, ht⟩)))))))))

theorem transitionRow_rxByteSucceeds {s t : State} {b : Byte} (hfsm : s.fsm = .statusRequested)
    (hp : s.phase = .recvLen ∨ s.phase = .recvBody) (hgood : FrameCompletes s b ∧ CompletedBodyParses s b)
    (ht : t.fsm = .responseReceived ∧ t.phase = .done) : TransitionRow (.rxByte b) s t :=
  .inr (.inr (.inr (.inr (.inr (.inr (.inr (.inr (.inl ⟨b, rfl, hfsm, hp, hgood, ht⟩))))))))

/-- No body of no bytes holds a response. -/
theorem not_responseParses_zero (f : Nat → Byte) : ¬ ResponseParses f 0 := by
  rintro ⟨n, m, v, -, -, hlen⟩
  omega

theorem Inv.followsTable_rxLengthByte {s : State} (h : Inv s) (hp : s.phase = .recvLen) (b : Byte) :
    FollowsTable (.rxByte b) s (s.rxLengthByte b) := by
  have hfsm := h.fsm_receiving (.inl hp)
  have hcount := h.prefix_count hp
  obtain ⟨L, c, hL, hc, ⟨-, -, ht⟩ | ⟨e, hbad, ht⟩ | ⟨hb, hzero, ht⟩ | ⟨hb, hne, hmax, ht⟩⟩ := s.rxLengthByte_cases b
  all_goals
    rw [ht]
    rw [← State.prefixValue_eq] at hL
    subst hL
  · exact .inl ⟨rfl, rfl⟩
  · have hfive : c = 5 → s.lcnt.toNat = 4 := fun heq => by
      have := congrArg BitVec.toNat (hc.symm.trans heq)
      rw [toNat_ofNat_of_lt (by omega)] at this
      exact Nat.succ.inj this
    refine .inr (.inl (transitionRow_rxByteFails hfsm (.inl hp) ?_ ⟨rfl, rfl⟩))
    obtain ⟨hb, heq⟩ | ⟨hb, hbig⟩ := hbad
    · exact .inl ⟨hp, hb, hfive heq⟩
    · exact .inr (.inl ⟨hp, hb, hbig⟩)
  · have hempty : ¬ CompletedBodyParses s b := by
      rw [CompletedBodyParses, if_neg (by simp [hp])]
      exact not_responseParses_zero _
    rw [State.complete_of_empty rfl]
    exact .inr (.inl (transitionRow_rxByteFails hfsm (.inl hp)
      (.inr (.inr ⟨.inr ⟨hp, hb, hzero⟩, hempty⟩)) ⟨rfl, rfl⟩))
  · have hpos : 0 < (s.prefixValue b).toNat := Nat.pos_of_ne_zero fun h0 => hne (BitVec.eq_of_toNat_eq h0)
    exact .inr (.inl (transitionRow_bodyOpens hfsm hp ⟨hb, hpos, hmax⟩ ⟨hfsm, rfl⟩))

/-- RX as the parse reads it: the completing byte behind those received. -/
theorem State.byteAt_bodyByteStored_eq {s : State} {b : Byte} {ins : List Input} (h : s.rxRcvd.toNat < 32768) :
    (s.bodyByteStored b ins).byteAt .rx = fun j => if j = s.rxRcvd.toNat then b else s.byteAt .rx j := by
  funext j
  split
  · next heq => rw [heq, State.byteAt_bodyByteStored h]
  · next hne => exact State.sameBytesOutside_bodyByteStored s b ins j (by omega)

/-- The parse of the completed body succeeds exactly where its bytes hold a response (R130). -/
theorem State.complete_bodyReceived_iff {s : State} {b : Byte} {ins : List Input} (hp : s.phase = .recvBody)
    (hlast : s.rxRcvd.toNat + 1 = s.rxFrameLen.toNat) (hmax : s.rxFrameLen.toNat ≤ 32768) :
    (s.bodyReceived [b] ins).complete.fsm = .responseReceived ↔ CompletedBodyParses s b := by
  rw [State.complete_parses_iff, ← State.bodyByteStored_eq_bodyReceived hlast,
    State.byteAt_bodyByteStored_eq (by omega), CompletedBodyParses, if_pos hp]
  rfl

/-- The parse ends in DONE, as a success or as a failure. -/
theorem State.complete_ends (s : State) :
    s.complete.phase = .done ∧ (s.complete.fsm = .responseReceived ∨ s.complete.fsm = .failed) := by
  obtain ⟨r, c, e, -, ht⟩ | ⟨r, c, o, l, -, -, ht⟩ := s.complete_cases
  · rw [ht]; exact ⟨rfl, .inr rfl⟩
  · rw [ht]; exact ⟨rfl, .inl rfl⟩

theorem Inv.followsTable_rxBodyByte {s : State} (h : Inv s) (hp : s.phase = .recvBody) (b : Byte) :
    FollowsTable (.rxByte b) s (s.rxBodyByte b) := by
  have hfsm := h.fsm_receiving (.inr hp)
  have hmissing := h.receiving_body hp
  obtain ⟨-, hmax⟩ := h.reader
  obtain ⟨-, ht⟩ | ⟨hlast, ht⟩ := s.rxBodyByte_cases b
  · rw [ht]
    exact .inl ⟨rfl, rfl⟩
  · have hlastNat : s.rxRcvd.toNat + 1 = s.rxFrameLen.toNat :=
      (toNat_rxRcvd_next hmissing).symm.trans (congrArg BitVec.toNat hlast)
    have hparses := State.complete_bodyReceived_iff (b := b) (ins := s.inputs) hp hlastNat hmax
    have ht' : s.rxBodyByte b = (s.bodyReceived [b] s.inputs).complete := ht
    obtain ⟨hdone, hgood | hbad⟩ := (s.bodyReceived [b] s.inputs).complete_ends
    · rw [ht']
      exact .inr (.inl (transitionRow_rxByteSucceeds hfsm (.inr hp) ⟨.inl ⟨hp, hlastNat⟩, hparses.1 hgood⟩ ⟨hgood, hdone⟩))
    · have hnot : ¬ CompletedBodyParses s b := mt hparses.2 (by rw [hbad]; decide)
      rw [ht']
      exact .inr (.inl (transitionRow_rxByteFails hfsm (.inr hp) (.inr (.inr ⟨.inl ⟨hp, hlastNat⟩, hnot⟩)) ⟨hbad, hdone⟩))

theorem Inv.followsTable_rxByte {s : State} (h : Inv s) (hp : s.phase = .recvLen ∨ s.phase = .recvBody) (b : Byte) :
    FollowsTable (.rxByte b) s (s.rxByte b) := by
  unfold State.rxByte
  split
  · next hlen => exact h.followsTable_rxLengthByte hlen b
  · next hlen => exact h.followsTable_rxBodyByte (hp.resolve_left hlen) b

theorem Inv.transitionRow_rxEos {s : State} (h : Inv s) (hp : s.phase = .recvLen ∨ s.phase = .recvBody) (e : ErrCause) :
    TransitionRow .rxEos s (s.fail e) :=
  .inr (.inr (.inr (.inr (.inr (.inr (.inr (.inr (.inr (.inr (.inl ⟨rfl, h.fsm_receiving hp, hp, rfl, rfl⟩))))))))))

/-! ### The tick and the I/O failure -/

theorem timerReaches_of_le {s : State} {T : Word} (h : T.toNat ≤ (timerNext s.timer).toNat) : TimerReaches s T := by
  rwa [toNat_timerNext] at h

theorem transitionRow_connectExpires {s t : State} (hfsm : s.fsm = .idle) (hp : s.phase = .connecting)
    (htimer : TimerReaches s s.connectTimeout) (ht : t.fsm = .failed ∧ t.phase = .done) : TransitionRow .tick s t :=
  .inr (.inr (.inr (.inr (.inl ⟨rfl, hfsm, hp, htimer, ht⟩))))

theorem transitionRow_readExpires {s t : State} (hfsm : s.fsm = .statusRequested)
    (hp : s.phase = .recvLen ∨ s.phase = .recvBody) (htimer : TimerReaches s s.readTimeout)
    (ht : t.fsm = .failed ∧ t.phase = .done) : TransitionRow .tick s t :=
  .inr (.inr (.inr (.inr (.inr (.inr (.inr (.inr (.inr (.inr (.inr (.inl ⟨rfl, hfsm, hp, htimer, ht⟩)))))))))))

/-- A tick moves the run only where TIMER reaches the timeout of its wait (R151). -/
theorem Inv.followsTable_tick {s : State} (h : Inv s) : FollowsTable .tick s s.tick := by
  obtain ⟨-, -, -, ht⟩ | ⟨-, -, ht⟩ | ⟨hp, hle, ht⟩ | ⟨-, -, ht⟩ | ⟨hp, hle, ht⟩ := s.tick_cases
  all_goals rw [ht]
  · exact .inl ⟨rfl, rfl⟩
  · exact .inl ⟨rfl, rfl⟩
  · have hfsm : s.fsm = .idle := of_decide_eq_true (h.fsm_fits hp)
    exact .inr (.inl (transitionRow_connectExpires hfsm hp (timerReaches_of_le hle) ⟨rfl, rfl⟩))
  · exact .inl ⟨rfl, rfl⟩
  · exact .inr (.inl (transitionRow_readExpires (h.fsm_receiving hp) hp (timerReaches_of_le hle) ⟨rfl, rfl⟩))

theorem Inv.transitionRow_ioErr {s : State} (h : Inv s)
    (hp : s.phase = .sendHs ∨ s.phase = .sendSr ∨ s.phase = .recvLen ∨ s.phase = .recvBody) (e : ErrCause) :
    TransitionRow .ioErr s (s.fail e) := by
  have hfsm : s.fsm = .connected ∨ s.fsm = .handshakeSent ∨ s.fsm = .statusRequested := by
    rcases hp with hhs | hsr | hrecv
    · exact .inl (of_decide_eq_true (h.fsm_fits hhs))
    · exact .inr (.inl (of_decide_eq_true (h.fsm_fits hsr)))
    · exact .inr (.inr (h.fsm_receiving hrecv))
  exact .inr (.inr (.inr (.inr (.inr (.inr (.inr (.inr (.inr (.inr (.inr (.inr ⟨rfl, hfsm, hp, rfl, rfl⟩)))))))))))

/-! ### Every step -/

theorem Inv.followsTable_take {i : Input} {s t : State} (h : Inv s) (he : enabled i s.phase = true)
    (ht : s.take i = .next t) : FollowsTable i s t := by
  cases i with
  | write32 off v =>
    obtain hkeeps | ⟨hi, hb, hx⟩ := busWrite_run ht
    · exact hkeeps.followsTable _
    · exact .inr (.inl (transitionRow_hsStart hi hb hx))
  | read32 _ => cases ht; exact .inl ⟨rfl, rfl⟩
  | connOk => cases ht; exact .inr (.inl (h.transitionRow_connOk (of_decide_eq_true he)))
  | connFail => cases ht; exact .inr (.inl (h.transitionRow_connFail (of_decide_eq_true he) _))
  | txAccept => cases ht; exact h.followsTable_txAccept (of_decide_eq_true he)
  | rxByte b => cases ht; exact h.followsTable_rxByte (of_decide_eq_true he) b
  | rxEos => cases ht; exact .inr (.inl (h.transitionRow_rxEos (of_decide_eq_true he) _))
  | ioErr => cases ht; exact .inr (.inl (h.transitionRow_ioErr (of_decide_eq_true he) _))
  | tick => cases ht; exact h.followsTable_tick
  | reset => cases ht; exact .inr (.inr ⟨rfl, rfl, rfl⟩)

/-- Settles O51, by the case of the environment step: each keeps FSM and PHASE, or is a row of the table or the reset. -/
theorem fsmAndPhaseFollowTheTable : Obligations.FsmAndPhaseFollowTheTable := by
  intro s t h hstep hmoved
  obtain ⟨-, rfl⟩ | ⟨i, rest, hin, he, ht⟩ := step_next hstep
  · simp at hmoved
  · have hinv : Inv { s with inputs := rest } := { h with }
    obtain ⟨hfsm, hphase⟩ | hrow := hinv.followsTable_take he ht
    · exact absurd hmoved (not_or.2 ⟨not_not.2 hfsm, not_not.2 hphase⟩)
    · exact ⟨i, rest, hin, hrow⟩

end Sys2Proof.Machine

/-! ERR (spec/60_exceptions.md R170 to R172, R181): a short command that fails changes nothing else, a rejected command leaves it,
and an accepted command, a failing run and Reset are all that writes it, always with a pair of R170's table. -/

namespace Sys2Proof.Machine

open Sys2Proof

/-- `t` holds the ERR of `s`. -/
structure KeepsErr (s t : State) : Prop where
  code : t.errCode = s.errCode
  sub : t.errSub = s.errSub

/-! ### The commands -/

/-- Settles O5: a CMD write is enabled in every phase, and the bus rejects it while BUSY. -/
theorem commandRejectedWhileBusy : Obligations.CommandRejectedWhileBusy := by
  intro s off w rest h hoff hb
  have hb' : State.busy { s with inputs := rest } = true := hb
  rw [step_write h, busWrite, if_pos (wordOffset_eq_zero_iff.2 hoff), if_pos hb']

/-- A short command raises an error or leaves ERR as it finds it (R171). -/
theorem exec_short_err {i : Instr} {s t : State} (hi : i ≠ .hsStart) (ht : exec i s = .next t) :
    (∃ e, t = s.raise e) ∨ KeepsErr s t := by
  obtain hraise | rfl | ⟨v, n, -, rfl⟩ | rfl | ⟨bs, -, rfl⟩ | rfl | ⟨-, rfl⟩ | ⟨b, -, rfl⟩ | ⟨n, -, rfl⟩ |
    ⟨v, k, -, rfl⟩ := exec_short hi ht
  · exact .inl hraise
  all_goals exact .inr ⟨rfl, rfl⟩

/-- Settles O35: of the two ways a short command ends, only the raise leaves an ERR.CODE that was not there. -/
theorem shortCommandErrorChangesOnlyErr : Obligations.ShortCommandErrorChangesOnlyErr := by
  intro i s t hi hs ht herr
  obtain ⟨e, rfl⟩ | hkeeps := exec_short_err hi ht
  · rfl
  · exact absurd (hkeeps.code.trans hs) herr

/-! ### The events of a run -/

/-- From `s` to `t` ERR is kept, or the failure entry of a run (44_handshake_fsm.md R156) writes it. -/
def KeepsErrOrFails (s t : State) : Prop := KeepsErr s t ∨ ∃ (u : State) (e : ErrCause), t = u.fail e

/-- Writes that keep ERR may stand before an effect that keeps it or fails the run. -/
theorem KeepsErrOrFails.of_keeps {s u t : State} (h : KeepsErrOrFails u t) (hsu : KeepsErr s u) : KeepsErrOrFails s t :=
  h.imp_left fun hut => ⟨hut.code.trans hsu.code, hut.sub.trans hsu.sub⟩

theorem keepsErrOrFails_connOk (s : State) : KeepsErrOrFails s s.connOk := by
  obtain ⟨-, e, ht⟩ | ⟨-, -, ht⟩ := s.connOk_cases
  · exact .inr ⟨_, e, ht⟩
  · rw [ht]; exact .inl ⟨rfl, rfl⟩

theorem keepsErr_txAccept (s : State) : KeepsErr s s.txAccept := by
  obtain ⟨-, ht⟩ | ⟨-, -, -, -, -, ht⟩ | ⟨-, -, ht⟩ := s.txAccept_cases
  · rw [ht]; exact ⟨rfl, rfl⟩
  · rw [ht]; exact ⟨rfl, rfl⟩
  · rw [ht]; exact ⟨rfl, rfl⟩

theorem keepsErrOrFails_complete (s : State) : KeepsErrOrFails s s.complete := by
  obtain ⟨r, c, e, -, ht⟩ | ⟨r, c, o, l, -, -, ht⟩ := s.complete_cases
  · exact .inr ⟨_, e, ht⟩
  · rw [ht]; exact .inl ⟨rfl, rfl⟩

theorem keepsErrOrFails_rxLengthByte (s : State) (b : Byte) : KeepsErrOrFails s (s.rxLengthByte b) := by
  obtain ⟨L, c, -, -, ⟨-, -, ht⟩ | ⟨e, -, ht⟩ | ⟨-, -, ht⟩ | ⟨-, -, -, ht⟩⟩ := s.rxLengthByte_cases b
  · rw [ht]; exact .inl ⟨rfl, rfl⟩
  · exact .inr ⟨_, e, ht⟩
  · rw [ht]; exact (keepsErrOrFails_complete _).of_keeps ⟨rfl, rfl⟩
  · rw [ht]; exact .inl ⟨rfl, rfl⟩

theorem keepsErrOrFails_rxBodyByte (s : State) (b : Byte) : KeepsErrOrFails s (s.rxBodyByte b) := by
  obtain ⟨-, ht⟩ | ⟨-, ht⟩ := s.rxBodyByte_cases b
  · rw [ht]; exact .inl ⟨rfl, rfl⟩
  · rw [ht]; exact (keepsErrOrFails_complete _).of_keeps ⟨rfl, rfl⟩

theorem keepsErrOrFails_rxByte (s : State) (b : Byte) : KeepsErrOrFails s (s.rxByte b) := by
  unfold State.rxByte
  split
  · exact keepsErrOrFails_rxLengthByte s b
  · exact keepsErrOrFails_rxBodyByte s b

theorem keepsErrOrFails_tick (s : State) : KeepsErrOrFails s s.tick := by
  obtain ⟨-, -, -, ht⟩ | ⟨-, -, ht⟩ | ⟨-, -, ht⟩ | ⟨-, -, ht⟩ | ⟨-, -, ht⟩ := s.tick_cases
  · rw [ht]; exact .inl ⟨rfl, rfl⟩
  · rw [ht]; exact .inl ⟨rfl, rfl⟩
  · exact .inr ⟨_, _, ht⟩
  · rw [ht]; exact .inl ⟨rfl, rfl⟩
  · exact .inr ⟨_, _, ht⟩

/-! ### The host's writes -/

theorem keepsErr_writeReg (s : State) (r : Reg) (v : Word) : KeepsErr s (s.writeReg r v) := by
  cases r <;> exact ⟨rfl, rfl⟩

theorem keepsErr_writeWord (s : State) (w : Nat) (v : Word) : KeepsErr s (s.writeWord w v) := by
  obtain ⟨r, hw⟩ | ⟨a, hw⟩ | ⟨a, hw⟩ := writeWord_cases s w v
  · rw [hw]; exact keepsErr_writeReg s r v
  · rw [hw]; exact ⟨rfl, rfl⟩
  · rw [hw]; exact ⟨rfl, rfl⟩

/-- Of all host writes only an accepted command reaches ERR. -/
theorem busWrite_err {off : Half} {v : Word} {s t : State} (ht : busWrite off v s = .next t) :
    KeepsErr s t ∨ (off &&& 0xFFFC = 0 ∧ s.busy = false ∧ execute v s.accept = .next t) := by
  obtain ⟨-, -, rfl⟩ | ⟨hoff, hb, hx⟩ | ⟨-, -, rfl⟩ | ⟨-, -, rfl⟩ := busWrite_next ht
  · exact .inl ⟨rfl, rfl⟩
  · exact .inr ⟨wordOffset_eq_zero_iff.1 hoff, hb, hx⟩
  · exact .inl ⟨rfl, rfl⟩
  · exact .inl (keepsErr_writeWord s _ v)

/-! ### Every step -/

/-- ERR's lifetime (R172): what the environment step `i` from `s` to `t` does to ERR. -/
inductive ErrStep (i : Input) (s t : State) : Prop where
  /-- it leaves ERR alone -/
  | keeps (h : KeepsErr s t)
  /-- it is an accepted CMD write, which clears ERR and executes (20_memory.md R51) -/
  | command (off : Half) (v : Word) (hi : i = .write32 off v) (hoff : off &&& 0xFFFC = 0) (hb : s.busy = false)
      (hx : execute v s.accept = .next t)
  /-- it fails the run in progress (44_handshake_fsm.md R156) -/
  | runFails (u : State) (e : ErrCause) (hb : s.busy = true) (ht : t = u.fail e)
  /-- it is the external reset (70_reset_and_hazards.md R190) -/
  | reset (hi : i = .reset) (ht : t = s.resetStep)

theorem KeepsErrOrFails.errStep {i : Input} {s t : State} (h : KeepsErrOrFails s t) (hb : s.busy = true) :
    ErrStep i s t := by
  obtain hkeeps | ⟨u, e, ht⟩ := h
  · exact .keeps hkeeps
  · exact .runFails u e hb ht

/-- An event that is enabled, but neither in IDLE nor in DONE, has its step in a run (44_handshake_fsm.md R157). -/
theorem State.busy_of_enabled {i : Input} {s : State} (he : enabled i s.phase = true) (hidle : enabled i .idle = false)
    (hdone : enabled i .done = false) : s.busy = true := by
  by_contra hb
  obtain hp | hp := State.phase_of_not_busy (Bool.eq_false_iff.2 hb)
  · simp [hp, hidle] at he
  · simp [hp, hdone] at he

theorem State.tick_of_not_busy {s : State} (hb : s.busy = false) : s.tick = s := by
  obtain hp | hp := s.phase_of_not_busy hb <;> rw [State.tick, hp]

theorem errStep_take {i : Input} {s t : State} (he : enabled i s.phase = true) (ht : s.take i = .next t) :
    ErrStep i s t := by
  cases i with
  | read32 _ => cases ht; exact .keeps ⟨rfl, rfl⟩
  | write32 off v =>
    obtain hkeeps | ⟨hoff, hb, hx⟩ := busWrite_err ht
    · exact .keeps hkeeps
    · exact .command off v rfl hoff hb hx
  | connOk => cases ht; exact (keepsErrOrFails_connOk s).errStep (State.busy_of_enabled he rfl rfl)
  | txAccept => cases ht; exact .keeps (keepsErr_txAccept s)
  | rxByte b => cases ht; exact (keepsErrOrFails_rxByte s b).errStep (State.busy_of_enabled he rfl rfl)
  | connFail | rxEos | ioErr => cases ht; exact .runFails s _ (State.busy_of_enabled he rfl rfl) rfl
  | tick =>
    cases ht
    cases hb : s.busy with
    | true => exact (keepsErrOrFails_tick s).errStep hb
    | false => rw [State.tick_of_not_busy hb]; exact .keeps ⟨rfl, rfl⟩
  | reset => cases ht; exact .reset rfl rfl

/-- Settles O53, by what the environment step does to ERR. -/
theorem errIsWrittenByNothingElse : Obligations.ErrIsWrittenByNothingElse := by
  intro s t hstep hchanged
  obtain ⟨-, rfl⟩ | ⟨i, rest, hin, he, ht⟩ := step_next hstep
  · simp at hchanged
  · cases errStep_take (s := { s with inputs := rest }) he ht with
    | keeps h => exact absurd hchanged (not_or.2 ⟨not_not.2 h.code, not_not.2 h.sub⟩)
    | command off v hi hoff hb _ => exact .inl ⟨off, v, rest, hi ▸ hin, hoff, hb⟩
    | runFails u e hb ht => subst ht; exact .inr (.inl ⟨hb, rfl, rfl⟩)
    | reset hi _ => exact .inr (.inr ⟨rest, hi ▸ hin⟩)

/-! ### The pairs of R170 -/

/-- Every cause has a row of the table. -/
theorem errListed_cause (e : ErrCause) : errListed e.code e.sub = true := by
  cases e <;> rfl

theorem KeepsErr.listed {s t : State} (h : KeepsErr s t) (hs : errListed s.errCode s.errSub = true) :
    errListed t.errCode t.errSub = true := by
  rw [h.code, h.sub]; exact hs

theorem errListed_exec {i : Instr} {s t : State} (hs : errListed s.errCode s.errSub = true) (ht : exec i s = .next t) :
    errListed t.errCode t.errSub = true := by
  by_cases hi : i = .hsStart
  · subst hi
    obtain ⟨-, rfl⟩ | ⟨-, rfl⟩ := exec_hsStart ht
    · exact errListed_cause .strTooLong
    · exact hs
  · obtain ⟨e, rfl⟩ | hkeeps := exec_short_err hi ht
    · exact errListed_cause e
    · exact hkeeps.listed hs

theorem errListed_execute {w : Word} {s t : State} (hs : errListed s.errCode s.errSub = true)
    (ht : execute w s = .next t) : errListed t.errCode t.errSub = true := by
  obtain ⟨i, -, hi⟩ | rfl | rfl := execute_next ht
  · exact errListed_exec hs hi
  · exact errListed_cause .undefinedOpcode
  · exact errListed_cause .reservedBitsSet

theorem ErrStep.listed {i : Input} {s t : State} (h : ErrStep i s t) (hs : errListed s.errCode s.errSub = true) :
    errListed t.errCode t.errSub = true := by
  cases h with
  | keeps h => exact h.listed hs
  | command off v _ _ _ hx => exact errListed_execute (s := s.accept) rfl hx
  | runFails u e _ ht => subst ht; exact errListed_cause e
  | reset _ ht => subst ht; rfl

/-- Settles O54: ERR is kept, or written with the pair of a cause, or cleared. -/
theorem errHoldsListedPairs : Obligations.ErrHoldsListedPairs := by
  intro s t hs hstep
  obtain ⟨-, rfl⟩ | ⟨i, rest, -, he, ht⟩ := step_next hstep
  · exact hs
  · exact (errStep_take (s := { s with inputs := rest }) he ht).listed hs

end Sys2Proof.Machine

/-! The external reset (spec/70_reset_and_hazards.md R190): one step, enabled in every phase. -/

namespace Sys2Proof.Machine

open Sys2Proof

/-- A Reset is taken in every phase, so its step always goes to `State.resetStep`. -/
theorem step_reset {s : State} {rest : List Input} (h : s.inputs = .reset :: rest) :
    step s = .next (State.resetStep { s with inputs := rest }) :=
  step_enabled h rfl

/-- Close ends a run in progress and no other reset. -/
theorem State.resetStep_trace (s : State) :
    s.resetStep.trace = if s.busy = true then s.trace ++ [.close] else s.trace := rfl

/-- A buffer in which nothing is written reads as its current draw. -/
theorem State.byteAt_of_unwritten {s : State} {b : Config.Buffer} (h : s.buffer b = []) (i : Nat) :
    s.byteAt b i = Config.drawnByte b s.draws i := by
  rw [State.byteAt, h, Mem.lookup, Option.getD_none]

theorem State.resetStep_buffer (s : State) (b : Config.Buffer) : s.resetStep.buffer b = [] := by
  cases b <;> rfl

theorem State.resetStep_byteAt (s : State) (b : Config.Buffer) (i : Nat) :
    s.resetStep.byteAt b i = Config.drawnByte b (s.draws + 1) i :=
  State.byteAt_of_unwritten (s.resetStep_buffer b) i

/-- Settles O14: the step is `State.resetStep`, which takes each register from `State.reset`; the trace and the buffers have
their own lemmas. -/
theorem resetStepRestoresResetValues : Obligations.ResetStepRestoresResetValues := by
  intro s rest h
  refine ⟨_, step_reset h, State.resetStep_trace _, ?status, ?config, ?builder, ?reader, State.resetStep_byteAt _, ?own⟩
  case status => exact ⟨rfl, rfl, rfl, rfl, rfl, rfl, rfl, rfl, rfl, rfl, rfl⟩
  case config => exact ⟨rfl, rfl, rfl, rfl, rfl⟩
  case builder => exact ⟨rfl, rfl, rfl, rfl, rfl⟩
  case reader => exact ⟨rfl, rfl, rfl, rfl, rfl, rfl, rfl, rfl⟩
  case own => exact ⟨rfl, rfl, rfl⟩

end Sys2Proof.Machine
